-- ==== Sys2Proof/Word.lean ====
section
/-! DEFINITION. The words the block handles: bytes, masked addresses, bus addresses, frame
numbers and the 40-bit operation word (00_scope.md R12, 30_encoding.md R80 to R84). -/

namespace Sys2Proof

/-- A byte is 8 bits (R12); every bus operation moves exactly one (R62). -/
abbrev Byte := BitVec 8

/-- A masked address (R51), a frame number (R38) or a peripheral command (R177): 16 bits. -/
abbrev Word16 := BitVec 16

/-- The bus address an operation word carries, before masking: its 24-bit field `w[31:8]` (R81). An address
issued on a bus of another width BUS_ADDR_W (R9) is put there by `carryAddr`. -/
abbrev BusAddr := BitVec 24

/-- One operation word (R80). -/
abbrev OpWord := BitVec 40

end Sys2Proof
end

