-- ==== Sys2Proof/Config.lean ====
section
/-! DEFINITION. What does not change while the machine runs: the constants of 00_scope.md R8, the
configuration record of R9 and R10, and the free bits of 93_implementation_defined.md U9.

Three kinds of value are kept apart. R8 constants are named numbers. R9 parameters are fields of
`Configuration` with the spec's defaults in `Config.machine` (log 1). R10 parameters are fields that
`Config.machine` fills with constants that have no body, so that nothing can be proved of their
values (log 2). `Config.cfg0` is the test fixture of R11. Every operation of the model is written for an arbitrary `Configuration`. -/

namespace Sys2Proof

/-- The three processors (R7): P0 the main processor, P1 coprocessor A, P2 coprocessor B. -/
inductive Proc where
  | main
  | copA
  | copB
  deriving DecidableEq, Repr

/-- The processor id of R7 and R81 (decision D35). -/
def Proc.id : Proc → Nat
  | .main => 0
  | .copA => 1
  | .copB => 2

namespace Config

/-! ### R8: constants the source fixes (unaudited literals, D32; log 11) -/

/-- NPROC: one main processor and two coprocessors, the three values of `Proc`. -/
def nproc : Nat := 3

/-- MEM_SIZE: bytes in each memory image. -/
def memSize : Nat := 65536

/-- ADDR_MASK: the bits of an issued address that survive masking (R51). -/
def addrMask : Nat := 0xFFFF

/-- REG_WIN_LO: first address of the main processor's register window. -/
def regWinLo : Nat := 0x5800

/-- REG_WIN_HI: last address of the main processor's register window. -/
def regWinHi : Nat := 0x5807

/-- PACKET_LEN: bytes in one target-data packet. -/
def packetLen : Nat := 1024

/-- FRAMES_PER_PACKET: a new packet becomes available every 53 frames. -/
def framesPerPacket : Nat := 53

/-- FIRST_PACKET_INDEX: packets below it are the reserved lead-in region. -/
def firstPacketIndex : Nat := 44

/-- BASE_SKEW: the "+ 1" of the base-offset formula. -/
def baseSkew : Nat := 1

/-- THRESHOLD_FRAME: the first frame at or past the threshold; R8 derives it as FRAMES_PER_PACKET times
FIRST_PACKET_INDEX. -/
def thresholdFrame : Nat := 2332

/-- NVRAM_LEN: the battery-backed bytes at the bottom of main memory. -/
def nvramLen : Nat := 4096

/-- STATUS_CMD_READY: status bit 4, hardwired true. -/
def statusCmdReady : Bool := true

/-- FIELD_RATE_HZ, about 59.94, in hundredths of a hertz: timing only, no rule and no definition depends on
it (R8). -/
def fieldRateCentiHz : Nat := 5994

end Config

/-- An inclusive address range, as the table of R53 and the `addr_ranges` of R89 give them. -/
structure AddrRange where
  lo : Nat
  hi : Nat
  deriving DecidableEq, Repr

/-- The configuration record: the parameters of R9 (with their defaults), those of R10, the persisted
battery-backed copy of R262 and the free bits of U9. It is not state and never changes (R45, R261). -/
structure Configuration where
  /-- BUS_ADDR_W: the width in bits of the address a bus operation carries before masking (D3). -/
  busAddrW : Nat := 24
  /-- LOWRAM_LO, LOWRAM_HI (D4). -/
  lowRam : AddrRange := ⟨0x0000, 0x0FFF⟩
  /-- SPRITE_LO, SPRITE_HI (D4). -/
  sprite : AddrRange := ⟨0x3000, 0x37FF⟩
  /-- TILE_LO, TILE_HI (D4). -/
  tile : AddrRange := ⟨0x3800, 0x4FFF⟩
  /-- PAL_LO, PAL_HI (D4). -/
  palette : AddrRange := ⟨0x5000, 0x501F⟩
  /-- ROM_LO, ROM_HI (D4). -/
  rom : AddrRange := ⟨0x6000, 0xFFFF⟩
  /-- REG_DIP, read (D5). -/
  regDip : Nat := 0x5800
  /-- REG_SERVICE, read (D5). -/
  regService : Nat := 0x5801
  /-- REG_SOUND, write (D5). -/
  regSound : Nat := 0x5802
  /-- REG_CTRL, write (D5). -/
  regCtrl : Nat := 0x5803
  /-- REG_LDFRAME, read (D5, D10). -/
  regLdFrame : Nat := 0x5805
  /-- REG_LDCMD, write (D5). -/
  regLdCmd : Nat := 0x5805
  /-- REG_LDDATA, read (D5). -/
  regLdData : Nat := 0x5806
  /-- REG_LDSEL, write (D5, D8). -/
  regLdSel : Nat := 0x5806
  /-- REG_LDSTATUS, read (D5). -/
  regLdStatus : Nat := 0x5807
  /-- CTRL_BIT_OVERLAY (D7). -/
  ctrlBitOverlay : Nat := 2
  /-- CTRL_BIT_GENLOCK (D7). -/
  ctrlBitGenlock : Nat := 3
  /-- LDSEL_BIT; 1 selects audio (D8). -/
  ldSelBit : Nat := 0
  /-- COP_RAM_LO, COP_RAM_HI, of each coprocessor (D6). -/
  copRam : AddrRange := ⟨0x0000, 0x03FF⟩
  /-- COP_ROM_LO, COP_ROM_HI, of each coprocessor (D6). -/
  copRom : AddrRange := ⟨0xC000, 0xFFFF⟩
  /-- COPA_MBOX, read (D6). -/
  copAMbox : Nat := 0x8000
  /-- COPB_MBOX, read (D6). -/
  copBMbox : Nat := 0xA000
  /-- COPB_CTRL, write (D6, D9). -/
  copBCtrl : Nat := 0x8000
  /-- COPB_SEC_EN_BIT (D9). -/
  copBSecEnBit : Nat := 0
  /-- COP_A_TICK_EN: whether coprocessor A gets a per-field interrupt (D9). -/
  copATickEn : Bool := false
  /-- FIFO_DEPTH; `none` is unbounded, the default (D27). -/
  fifoDepth : Option Nat := none
  /-- TABLE, meant for indices below TABLE_LEN (R10, R68). -/
  table : Nat → Byte
  /-- TABLE_LEN (R10). -/
  tableLen : Nat
  /-- PAUSE_CMD (R10, D14). -/
  pauseCmd : Byte
  /-- DIP_PERM, a bijection on the eight bit positions (R10, D23). -/
  dipPerm : Equiv.Perm (Fin 8)
  /-- UNMAPPED_READ_VALUE (R10, D25). -/
  unmappedReadValue : Byte
  /-- MBOX_EMPTY_VALUE (R10, D25). -/
  mboxEmptyValue : Byte
  /-- INIT_MEM[p] (R10, D21). -/
  initMem : Proc → Nat → Byte
  /-- DIP_DEFAULT (R10, D21). -/
  dipDefault : Byte
  /-- SERVICE_DEFAULT (R10, D21). -/
  serviceDefault : Byte
  /-- The persisted copy of the battery-backed region, if the host has one (R262). -/
  persisted : Option (Nat → Byte)
  /-- The free bits RESET and power-on draw for the two dirty flags (U9): the n-th draw. -/
  freeBit : Nat → Bool

namespace Config

/-! ### R10, R262, U9: values the spec leaves open. No body: nothing can be proved of them. -/

/-- TABLE (U10): `parameter`. -/
opaque table : Nat → Byte
/-- TABLE_LEN (U10): `parameter`. -/
opaque tableLen : Nat
/-- PAUSE_CMD (U12): `parameter`. -/
opaque pauseCmd : Byte
/-- DIP_PERM (U12): `parameter`, any bijection. -/
opaque dipPerm : Equiv.Perm (Fin 8)
/-- UNMAPPED_READ_VALUE (U1): `parameter`. -/
opaque unmappedReadValue : Byte
/-- MBOX_EMPTY_VALUE (U2): `parameter`. -/
opaque mboxEmptyValue : Byte
/-- INIT_MEM (U7): `parameter`; for proofs any value. -/
opaque initMem : Proc → Nat → Byte
/-- DIP_DEFAULT (U13): `parameter`. -/
opaque dipDefault : Byte
/-- SERVICE_DEFAULT (U13): `parameter`. -/
opaque serviceDefault : Byte
/-- The persisted battery-backed copy, if any (R262; log 12). -/
opaque persisted : Option (Nat → Byte)
/-- The free bits of U9: `any value` (log 3). -/
opaque freeBit : Nat → Bool

/-- The configuration of the machine: R9 at its defaults, R10 open. -/
def machine : Configuration where
  table := table
  tableLen := tableLen
  pauseCmd := pauseCmd
  dipPerm := dipPerm
  unmappedReadValue := unmappedReadValue
  mboxEmptyValue := mboxEmptyValue
  initMem := initMem
  dipDefault := dipDefault
  serviceDefault := serviceDefault
  persisted := persisted
  freeBit := freeBit

/-- The reference configuration CFG0 of R11: every default of R9 and a value for every parameter of R10. It
is the fixture of the spec's test vectors and says nothing of the hardware (D34). S0 of 95_test_vectors.md
starts with both dirty flags 0 and with no persisted copy. -/
def cfg0 : Configuration where
  table := fun i => BitVec.ofNat 8 ((i + i / 256) % 256)
  tableLen := 4096
  pauseCmd := 0xA5#8
  dipPerm := Fin.revPerm
  unmappedReadValue := 0x00#8
  mboxEmptyValue := 0x00#8
  initMem := fun p a =>
    match p with
    | .main => if a = 0x6000 then 0xEA#8 else 0x00#8
    | .copA => if a = 0xC000 then 0x4C#8 else 0x00#8
    | .copB => 0x00#8
  dipDefault := 0x00#8
  serviceDefault := 0x00#8
  persisted := none
  freeBit := fun _ => false

end Config

end Sys2Proof
end

