-- ==== Sys2Proof/Machine/Operands.lean ====
section
/-! DEFINITION. Operand forms: masking an address, the fields inside data bytes, decimal digits, the DIP
permutation (20_memory.md R51, 30_encoding.md R84 and R85, 44_status_control.md R202 and R205). -/

namespace Sys2Proof

/-- Whether a masked address lies in a range, both bounds included (R89). -/
def AddrRange.has (r : AddrRange) (m : Nat) : Bool := decide (r.lo ≤ m) && decide (m ≤ r.hi)

/-- `mask16(a) = a mod 65536`, for an address of any width: its bits under ADDR_MASK (R8, R51, R84). -/
def maskAddr {w : Nat} (a : BitVec w) : Word16 := BitVec.ofNat 16 (a.toNat &&& Config.addrMask)

/-- An address issued on a bus of BUS_ADDR_W bits as the address field of an operation word carries it (R9,
R81): its low 24 bits, the higher bits of the field 0. Masking keeps only the low 16, so every width of 16 or
more behaves alike (D3; log 1). -/
def carryAddr (c : Configuration) (a : BitVec c.busAddrW) : BusAddr := a.setWidth 24

namespace Machine

/-- `zext_16(v)`: the byte in the low half of a 16-bit number (R13, R177). -/
def zext16 (v : Byte) : Word16 := v.setWidth 16

/-- `bcd_digit(f, k) = (f div 10^k) mod 10`: decimal digit k of the frame number, digit 0 the units
(R13, R202, R208). -/
def bcdDigit (f : Word16) (k : Nat) : Nat := f.toNat / 10 ^ k % 10

/-- Two decimal digits in one byte, the first in the high nibble (R63, R202, D10). -/
def packDigits (hi lo : Nat) : Byte := BitVec.ofNat 4 hi ++ BitVec.ofNat 4 lo

/-- The byte MRD_LDFRAME returns: digits 1 and 0 of the frame number (R201). -/
def frameLowByte (f : Word16) : Byte := packDigits (bcdDigit f 1) (bcdDigit f 0)

/-- The byte MRD_LDDATA returns in video mode: digits 3 and 2 of the frame number (R174, R202). -/
def frameMidByte (f : Word16) : Byte := packDigits (bcdDigit f 3) (bcdDigit f 2)

/-- A byte with bit j set to b and every other bit kept. -/
def setBit (v : Byte) (j : Nat) (b : Bool) : Byte :=
  if b then v ||| (1#8 <<< j) else v &&& ~~~(1#8 <<< j)

/-- `for i in 0..7: dip_sw[DIP_PERM(i)] <- value[i]`, started from the byte dip_sw holds (R205). -/
def permuteInto (perm : Equiv.Perm (Fin 8)) (old value : Byte) : Byte :=
  (List.finRange 8).foldl (fun acc i => setBit acc (perm i).val (value.getLsbD i.val)) old

/-- The decoder-select flag of a byte written to REG_LDSEL; true selects audio (R85, R176). -/
def ldSelFlag (c : Configuration) (v : Byte) : Bool := v.getLsbD c.ldSelBit

/-- The secondary-interrupt enable of a byte coprocessor B writes to COPB_CTRL (R85, R162). -/
def secEnFlag (c : Configuration) (v : Byte) : Bool := v.getLsbD c.copBSecEnBit

/-- The video-overlay-enable bit of a control byte (R24, R85, R204). -/
def overlayBit (c : Configuration) (v : Byte) : Bool := v.getLsbD c.ctrlBitOverlay

/-- The genlock/transparency-enable bit of a control byte (R24, R85, R204). -/
def genlockBit (c : Configuration) (v : Byte) : Bool := v.getLsbD c.ctrlBitGenlock

end Machine

end Sys2Proof
end

