-- ==== Sys2Proof/Syntax.lean ====
section
/-! DEFINITION. The operations the block accepts: one constructor per row of spec/opcode_table.json, in
the table's order (30_encoding.md R88). A bus operation carries its address as issued, 24 bits, before
masking (R81); a write also carries its byte. -/

namespace Sys2Proof

/-- The five interrupt lines, each the pair (processor, line number) of R36 and R225. These are the only
pairs an IRQACK word may name (R91). -/
inductive Line where
  /-- (0,0) PERIODIC, to the main processor. -/
  | mainPeriodic
  /-- (1,0) IRQ, mailbox line of coprocessor A. -/
  | aMbox
  /-- (1,1) SECONDARY of coprocessor A. -/
  | aSec
  /-- (2,0) IRQ, mailbox line of coprocessor B. -/
  | bMbox
  /-- (2,1) SECONDARY of coprocessor B. -/
  | bSec
  deriving DecidableEq, Repr

/-- The processor a line goes to (R36, R225). -/
def Line.proc : Line → Proc
  | .mainPeriodic => .main
  | .aMbox | .aSec => .copA
  | .bMbox | .bSec => .copB

/-- The line number at that processor (R36, D19). -/
def Line.number : Line → Nat
  | .mainPeriodic | .aMbox | .bMbox => 0
  | .aSec | .bSec => 1

/-- One operation of the block (R6, R88). -/
inductive Instr where
  | mrdLowram (addr : BusAddr)
  | mrdSprite (addr : BusAddr)
  | mrdTile (addr : BusAddr)
  | mrdPalette (addr : BusAddr)
  | mrdDip (addr : BusAddr)
  | mrdService (addr : BusAddr)
  | mrdLdframe (addr : BusAddr)
  | mrdLddata (addr : BusAddr)
  | mrdLdstatus (addr : BusAddr)
  | mrdUndef (addr : BusAddr)
  | mrdRom (addr : BusAddr)
  | mrdUnmapped (addr : BusAddr)
  | mwrLowram (addr : BusAddr) (v : Byte)
  | mwrSprite (addr : BusAddr) (v : Byte)
  | mwrTile (addr : BusAddr) (v : Byte)
  | mwrPalette (addr : BusAddr) (v : Byte)
  | mwrSound (addr : BusAddr) (v : Byte)
  | mwrCtrl (addr : BusAddr) (v : Byte)
  | mwrLdcmd (addr : BusAddr) (v : Byte)
  | mwrLdsel (addr : BusAddr) (v : Byte)
  | mwrUndef (addr : BusAddr) (v : Byte)
  | mwrRom (addr : BusAddr) (v : Byte)
  | mwrUnmapped (addr : BusAddr) (v : Byte)
  | ardRam (addr : BusAddr)
  | ardMbox (addr : BusAddr)
  | ardRom (addr : BusAddr)
  | ardUnmapped (addr : BusAddr)
  | awrRam (addr : BusAddr) (v : Byte)
  | awrUndef (addr : BusAddr) (v : Byte)
  | awrRom (addr : BusAddr) (v : Byte)
  | awrUnmapped (addr : BusAddr) (v : Byte)
  | brdRam (addr : BusAddr)
  | brdUndef (addr : BusAddr)
  | brdMbox (addr : BusAddr)
  | brdRom (addr : BusAddr)
  | brdUnmapped (addr : BusAddr)
  | bwrRam (addr : BusAddr) (v : Byte)
  | bwrCtrl (addr : BusAddr) (v : Byte)
  | bwrUndef (addr : BusAddr) (v : Byte)
  | bwrRom (addr : BusAddr) (v : Byte)
  | bwrUnmapped (addr : BusAddr) (v : Byte)
  | tick
  | reset
  | ldreset
  | dipset (bank : BitVec 24) (value : Byte)
  | svcset (value : Byte)
  | sigloss (n : BitVec 24)
  | irqack (line : Line)
  | ldframe (f : Word16)
  deriving DecidableEq, Repr

/-- Why an operation word is reserved, clause by clause of R91. -/
inductive Reserved where
  /-- kind in 3..15. -/
  | kind
  /-- a BUS word with agent = 3. -/
  | agent
  /-- a BUS word with `w[32]` = 1. -/
  | busZeroBit
  /-- a BUS read with `wdata` not 0. -/
  | readData
  /-- a TICK word with any of bits 35:0 set. -/
  | tickBits
  /-- an ENV word with sub in 7..15. -/
  | sub
  /-- an ENV word with a must-be-0 field not 0. -/
  | envField
  /-- an IRQACK whose (agent, line) pair is not one of the five. -/
  | irqPair
  deriving DecidableEq, Repr

end Sys2Proof
end

