-- ==== Sys2Proof/WellFormed.lean ====
section
/-! DEFINITION. Which operations are well formed in the machine's configuration: a bus operation's masked
address lies in the ranges that 30_encoding.md R88 and the `addr_ranges` of spec/opcode_table.json give
its mnemonic. The ranges are written here from that table and not from the decoder, so that the two can
be checked against each other. Every other operand has a type that admits exactly the legal values. -/

namespace Sys2Proof

/-- The bus address an operation carries, if it is a bus operation (R81). -/
def Instr.addr? : Instr → Option BusAddr
  | .mrdLowram a | .mrdSprite a | .mrdTile a | .mrdPalette a | .mrdDip a | .mrdService a
  | .mrdLdframe a | .mrdLddata a | .mrdLdstatus a | .mrdUndef a | .mrdRom a | .mrdUnmapped a => some a
  | .mwrLowram a _ | .mwrSprite a _ | .mwrTile a _ | .mwrPalette a _ | .mwrSound a _ | .mwrCtrl a _
  | .mwrLdcmd a _ | .mwrLdsel a _ | .mwrUndef a _ | .mwrRom a _ | .mwrUnmapped a _ => some a
  | .ardRam a | .ardMbox a | .ardRom a | .ardUnmapped a => some a
  | .awrRam a _ | .awrUndef a _ | .awrRom a _ | .awrUnmapped a _ => some a
  | .brdRam a | .brdUndef a | .brdMbox a | .brdRom a | .brdUnmapped a => some a
  | .bwrRam a _ | .bwrCtrl a _ | .bwrUndef a _ | .bwrRom a _ | .bwrUnmapped a _ => some a
  | .tick | .reset | .ldreset | .dipset _ _ | .svcset _ | .sigloss _ | .irqack _ | .ldframe _ => none

/-- The masked addresses of each bus mnemonic under the default map, row by row of R88. -/
def Instr.addrRanges : Instr → List AddrRange
  | .mrdLowram _ => [⟨0x0000, 0x0FFF⟩]
  | .mrdSprite _ => [⟨0x3000, 0x37FF⟩]
  | .mrdTile _ => [⟨0x3800, 0x4FFF⟩]
  | .mrdPalette _ => [⟨0x5000, 0x501F⟩]
  | .mrdDip _ => [⟨0x5800, 0x5800⟩]
  | .mrdService _ => [⟨0x5801, 0x5801⟩]
  | .mrdLdframe _ => [⟨0x5805, 0x5805⟩]
  | .mrdLddata _ => [⟨0x5806, 0x5806⟩]
  | .mrdLdstatus _ => [⟨0x5807, 0x5807⟩]
  | .mrdUndef _ => [⟨0x5802, 0x5804⟩]
  | .mrdRom _ => [⟨0x6000, 0xFFFF⟩]
  | .mrdUnmapped _ => [⟨0x1000, 0x2FFF⟩, ⟨0x5020, 0x57FF⟩, ⟨0x5808, 0x5FFF⟩]
  | .mwrLowram _ _ => [⟨0x0000, 0x0FFF⟩]
  | .mwrSprite _ _ => [⟨0x3000, 0x37FF⟩]
  | .mwrTile _ _ => [⟨0x3800, 0x4FFF⟩]
  | .mwrPalette _ _ => [⟨0x5000, 0x501F⟩]
  | .mwrSound _ _ => [⟨0x5802, 0x5802⟩]
  | .mwrCtrl _ _ => [⟨0x5803, 0x5803⟩]
  | .mwrLdcmd _ _ => [⟨0x5805, 0x5805⟩]
  | .mwrLdsel _ _ => [⟨0x5806, 0x5806⟩]
  | .mwrUndef _ _ => [⟨0x5800, 0x5801⟩, ⟨0x5804, 0x5804⟩, ⟨0x5807, 0x5807⟩]
  | .mwrRom _ _ => [⟨0x6000, 0xFFFF⟩]
  | .mwrUnmapped _ _ => [⟨0x1000, 0x2FFF⟩, ⟨0x5020, 0x57FF⟩, ⟨0x5808, 0x5FFF⟩]
  | .ardRam _ => [⟨0x0000, 0x03FF⟩]
  | .ardMbox _ => [⟨0x8000, 0x8000⟩]
  | .ardRom _ => [⟨0xC000, 0xFFFF⟩]
  | .ardUnmapped _ => [⟨0x0400, 0x7FFF⟩, ⟨0x8001, 0xBFFF⟩]
  | .awrRam _ _ => [⟨0x0000, 0x03FF⟩]
  | .awrUndef _ _ => [⟨0x8000, 0x8000⟩]
  | .awrRom _ _ => [⟨0xC000, 0xFFFF⟩]
  | .awrUnmapped _ _ => [⟨0x0400, 0x7FFF⟩, ⟨0x8001, 0xBFFF⟩]
  | .brdRam _ => [⟨0x0000, 0x03FF⟩]
  | .brdUndef _ => [⟨0x8000, 0x8000⟩]
  | .brdMbox _ => [⟨0xA000, 0xA000⟩]
  | .brdRom _ => [⟨0xC000, 0xFFFF⟩]
  | .brdUnmapped _ => [⟨0x0400, 0x7FFF⟩, ⟨0x8001, 0x9FFF⟩, ⟨0xA001, 0xBFFF⟩]
  | .bwrRam _ _ => [⟨0x0000, 0x03FF⟩]
  | .bwrCtrl _ _ => [⟨0x8000, 0x8000⟩]
  | .bwrUndef _ _ => [⟨0xA000, 0xA000⟩]
  | .bwrRom _ _ => [⟨0xC000, 0xFFFF⟩]
  | .bwrUnmapped _ _ => [⟨0x0400, 0x7FFF⟩, ⟨0x8001, 0x9FFF⟩, ⟨0xA001, 0xBFFF⟩]
  | .tick | .reset | .ldreset | .dipset _ _ | .svcset _ | .sigloss _ | .irqack _ | .ldframe _ => []

/-- The one check: a bus operation's masked address lies in one of its mnemonic's ranges (R88, R89). -/
def Instr.wellFormed (i : Instr) : Bool :=
  match i.addr? with
  | some a => i.addrRanges.any fun r => r.has (maskAddr a).toNat
  | none => true

end Sys2Proof
end

