-- ==== Sys2Proof/Decode.lean ====
section
/-! DEFINITION. The decoder, total on every operation word, rejecting by name (30_encoding.md R80 to R92),
and after it the encoder. The decode of a bus word follows R86 for an arbitrary configuration: registers
first, then the register window, then the regions, then unmapped. -/

namespace Sys2Proof

/-! ### Fields of the word (R80, R81, R83, R84) -/

/-- `w[39:36]`: 0 BUS, 1 TICK, 2 ENV (R80). -/
def fieldKind (w : OpWord) : Nat := (w.extractLsb' 36 4).toNat
/-- `w[35:34]`, the processor id of a BUS word (R81). -/
def fieldAgent (w : OpWord) : Nat := (w.extractLsb' 34 2).toNat
/-- `w[33]`: true for a write (R81). -/
def fieldRw (w : OpWord) : Bool := w.getLsbD 33
/-- `w[32]`, which must be 0 in a BUS word (R81). -/
def fieldZero (w : OpWord) : Bool := w.getLsbD 32
/-- `w[31:8]`: the bus address as issued (R81), or the `arg` of an ENV word (R83). -/
def fieldAddr (w : OpWord) : BitVec 24 := w.extractLsb' 8 24
/-- `w[7:0]`: the byte written (R81), or the `val` of an ENV word (R83). -/
def fieldData (w : OpWord) : Byte := w.extractLsb' 0 8
/-- `w[35:0]`, which must be 0 in a TICK word (R82). -/
def fieldTickRest (w : OpWord) : BitVec 36 := w.extractLsb' 0 36
/-- `w[35:32]`: the `sub` of an ENV word (R83). -/
def fieldSub (w : OpWord) : Nat := (w.extractLsb' 32 4).toNat

/-! ### Bus decode (R86, R87) -/

/-- Main-processor read (agent 0, rw 0). -/
def decodeMainRead (c : Configuration) (a : BusAddr) : Instr :=
  let m := (maskAddr a).toNat
  if m = c.regDip then .mrdDip a
  else if m = c.regService then .mrdService a
  else if m = c.regLdFrame then .mrdLdframe a
  else if m = c.regLdData then .mrdLddata a
  else if m = c.regLdStatus then .mrdLdstatus a
  else if Config.regWinLo ≤ m ∧ m ≤ Config.regWinHi then .mrdUndef a
  else if c.lowRam.has m then .mrdLowram a
  else if c.sprite.has m then .mrdSprite a
  else if c.tile.has m then .mrdTile a
  else if c.palette.has m then .mrdPalette a
  else if c.rom.has m then .mrdRom a
  else .mrdUnmapped a

/-- Main-processor write (agent 0, rw 1). -/
def decodeMainWrite (c : Configuration) (a : BusAddr) (v : Byte) : Instr :=
  let m := (maskAddr a).toNat
  if m = c.regSound then .mwrSound a v
  else if m = c.regCtrl then .mwrCtrl a v
  else if m = c.regLdCmd then .mwrLdcmd a v
  else if m = c.regLdSel then .mwrLdsel a v
  else if Config.regWinLo ≤ m ∧ m ≤ Config.regWinHi then .mwrUndef a v
  else if c.lowRam.has m then .mwrLowram a v
  else if c.sprite.has m then .mwrSprite a v
  else if c.tile.has m then .mwrTile a v
  else if c.palette.has m then .mwrPalette a v
  else if c.rom.has m then .mwrRom a v
  else .mwrUnmapped a v

/-- Coprocessor A read (agent 1, rw 0). -/
def decodeARead (c : Configuration) (a : BusAddr) : Instr :=
  let m := (maskAddr a).toNat
  if m = c.copAMbox then .ardMbox a
  else if c.copRam.has m then .ardRam a
  else if c.copRom.has m then .ardRom a
  else .ardUnmapped a

/-- Coprocessor A write (agent 1, rw 1). -/
def decodeAWrite (c : Configuration) (a : BusAddr) (v : Byte) : Instr :=
  let m := (maskAddr a).toNat
  if m = c.copAMbox then .awrUndef a v
  else if c.copRam.has m then .awrRam a v
  else if c.copRom.has m then .awrRom a v
  else .awrUnmapped a v

/-- Coprocessor B read (agent 2, rw 0). -/
def decodeBRead (c : Configuration) (a : BusAddr) : Instr :=
  let m := (maskAddr a).toNat
  if m = c.copBMbox then .brdMbox a
  else if m = c.copBCtrl then .brdUndef a
  else if c.copRam.has m then .brdRam a
  else if c.copRom.has m then .brdRom a
  else .brdUnmapped a

/-- Coprocessor B write (agent 2, rw 1). -/
def decodeBWrite (c : Configuration) (a : BusAddr) (v : Byte) : Instr :=
  let m := (maskAddr a).toNat
  if m = c.copBMbox then .bwrUndef a v
  else if m = c.copBCtrl then .bwrCtrl a v
  else if c.copRam.has m then .bwrRam a v
  else if c.copRom.has m then .bwrRom a v
  else .bwrUnmapped a v

/-- A BUS word (kind 0): the reserved ones of R91 first, then R86. -/
def decodeBus (c : Configuration) (w : OpWord) : Except Reserved Instr :=
  let a := fieldAddr w
  let v := fieldData w
  if fieldZero w then .error .busZeroBit
  else if fieldRw w then
    match fieldAgent w with
    | 0 => .ok (decodeMainWrite c a v)
    | 1 => .ok (decodeAWrite c a v)
    | 2 => .ok (decodeBWrite c a v)
    | _ => .error .agent
  else
    match fieldAgent w with
    | 0 => if v = 0#8 then .ok (decodeMainRead c a) else .error .readData
    | 1 => if v = 0#8 then .ok (decodeARead c a) else .error .readData
    | 2 => if v = 0#8 then .ok (decodeBRead c a) else .error .readData
    | _ => .error .agent

/-- The line an IRQACK word names: arg[3:2] = agent, arg[1:0] = line; five pairs are legal (R83, R91). -/
def lineOf : Nat → Nat → Option Line
  | 0, 0 => some .mainPeriodic
  | 1, 0 => some .aMbox
  | 1, 1 => some .aSec
  | 2, 0 => some .bMbox
  | 2, 1 => some .bSec
  | _, _ => none

/-- An ENV word (kind 2): R83, with the must-be-0 fields and the IRQACK pairs of R91. -/
def decodeEnv (w : OpWord) : Except Reserved Instr :=
  let arg := fieldAddr w
  let val := fieldData w
  match fieldSub w with
  | 0 => if arg = 0#24 ∧ val = 0#8 then .ok .reset else .error .envField
  | 1 => if arg = 0#24 ∧ val = 0#8 then .ok .ldreset else .error .envField
  | 2 => .ok (.dipset arg val)
  | 3 => if arg = 0#24 then .ok (.svcset val) else .error .envField
  | 4 => if val = 0#8 then .ok (.sigloss arg) else .error .envField
  | 5 =>
    if arg.extractLsb' 4 20 = 0#20 ∧ val = 0#8 then
      match lineOf (arg.extractLsb' 2 2).toNat (arg.extractLsb' 0 2).toNat with
      | some l => .ok (.irqack l)
      | none => .error .irqPair
    else .error .envField
  | 6 => if arg.extractLsb' 16 8 = 0#8 ∧ val = 0#8 then .ok (.ldframe (arg.setWidth 16)) else .error .envField
  | _ => .error .sub

/-- The decode of any operation word under any configuration (R80, R82, R86, R91). -/
def decodeWith (c : Configuration) (w : OpWord) : Except Reserved Instr :=
  match fieldKind w with
  | 0 => decodeBus c w
  | 1 => if fieldTickRest w = 0#36 then .ok .tick else .error .tickBits
  | 2 => decodeEnv w
  | _ => .error .kind

/-- The decode of the machine's own configuration. -/
def decode (w : OpWord) : Except Reserved Instr := decodeWith Config.machine w

/-! ### The encoder, written from the formats of R81 to R83 -/

/-- The 40-bit word of a BUS operation (R81). -/
def busWord (p : Proc) (write : Bool) (a : BusAddr) (v : Byte) : OpWord :=
  0#4 ++ BitVec.ofNat 2 p.id ++ BitVec.ofBool write ++ 0#1 ++ a ++ v

/-- The word of a bus access at an address of BUS_ADDR_W bits (R9, R51, R81). -/
def issueWord (c : Configuration) (p : Proc) (write : Bool) (a : BitVec c.busAddrW) (v : Byte) : OpWord :=
  busWord p write (carryAddr c a) v

/-- The 40-bit word of an ENV operation (R83). -/
def envWord (sub : BitVec 4) (arg : BitVec 24) (val : Byte) : OpWord := 2#4 ++ sub ++ arg ++ val

/-- The `arg` field of IRQACK for a line: arg[3:2] = agent, arg[1:0] = line (R83). -/
def lineArg (l : Line) : BitVec 24 := 0#20 ++ BitVec.ofNat 2 l.proc.id ++ BitVec.ofNat 2 l.number

/-- The operation word of an operation. -/
def encode : Instr → OpWord
  | .mrdLowram a | .mrdSprite a | .mrdTile a | .mrdPalette a | .mrdDip a | .mrdService a
  | .mrdLdframe a | .mrdLddata a | .mrdLdstatus a | .mrdUndef a | .mrdRom a | .mrdUnmapped a =>
    busWord .main false a 0#8
  | .mwrLowram a v | .mwrSprite a v | .mwrTile a v | .mwrPalette a v | .mwrSound a v | .mwrCtrl a v
  | .mwrLdcmd a v | .mwrLdsel a v | .mwrUndef a v | .mwrRom a v | .mwrUnmapped a v => busWord .main true a v
  | .ardRam a | .ardMbox a | .ardRom a | .ardUnmapped a => busWord .copA false a 0#8
  | .awrRam a v | .awrUndef a v | .awrRom a v | .awrUnmapped a v => busWord .copA true a v
  | .brdRam a | .brdUndef a | .brdMbox a | .brdRom a | .brdUnmapped a => busWord .copB false a 0#8
  | .bwrRam a v | .bwrCtrl a v | .bwrUndef a v | .bwrRom a v | .bwrUnmapped a v => busWord .copB true a v
  | .tick => 1#4 ++ 0#36
  | .reset => envWord 0#4 0#24 0#8
  | .ldreset => envWord 1#4 0#24 0#8
  | .dipset bank value => envWord 2#4 bank value
  | .svcset value => envWord 3#4 0#24 value
  | .sigloss n => envWord 4#4 n 0#8
  | .irqack l => envWord 5#4 (lineArg l) 0#8
  | .ldframe f => envWord 6#4 (0#8 ++ f) 0#8

/-! ### The host's question -/

/-- The operation word whose low `nbits` bits are those of w, every bit above them 0 (a word has 40). -/
def opWordOf (nbits w : Nat) : OpWord := BitVec.ofNat 40 (w % 2 ^ nbits)

/-- The operation the decoder reads from a word given as the opcode table numbers its bits. -/
def decodeTableWord (nbits w : Nat) : Option Instr :=
  match decode (opWordOf nbits w) with
  | .ok i => some i
  | .error _ => none

end Sys2Proof
end

