-- ==== Sys2Proof/Machine/Flags.lean ====
section
/-! DEFINITION. Every flag and condition the spec computes: the packet arithmetic of the stream engine
(42_stream.md R170 to R173, R177, R180), the status byte (44_status_control.md R200) and the change
tests (10_state.md R39 (c)). -/

namespace Sys2Proof.Machine

/-- Packet index = frame div 53 (R170). -/
def packetIndex (f : Word16) : Nat := f.toNat / Config.framesPerPacket

/-- The frame lies on a boundary: f mod 53 = 0 (R170, D12). -/
def onBoundary (f : Word16) : Bool := f.toNat % Config.framesPerPacket == 0

/-- At or past the threshold: f div 53 >= 44 (R171, R177), which is f >= THRESHOLD_FRAME (R8,
`pastThreshold_iff`); status bit 7 tests its negation (R200). -/
def pastThreshold (f : Word16) : Bool := decide (Config.firstPacketIndex ≤ packetIndex f)

/-- Qualifying transition: f mod 53 = 0, f != prev_frame and f div 53 >= 44 (R171). -/
def qualifies (f prev : Word16) : Bool := onBoundary f && f != prev && pastThreshold f

/-- Same-frame re-tick: f mod 53 = 0 and f = prev_frame; the packet index plays no part (R172). -/
def reTick (f prev : Word16) : Bool := onBoundary f && f == prev

/-- `(k - 44) * 1024 + 1` for packet index k, a 32-bit number (R27, R171). -/
def packetBase (k : Nat) : BitVec 32 :=
  BitVec.ofNat 32 ((k - Config.firstPacketIndex) * Config.packetLen + Config.baseSkew)

/-- Pause-command edge: the byte is PAUSE_CMD, the preceding command was not the same byte, and the frame
is at or past the threshold (R177). -/
def pauseEdge (c : Configuration) (v : Byte) (prev : Option Byte) (f : Word16) : Bool :=
  v == c.pauseCmd && prev != some v && pastThreshold f

/-- Status bit 7, audio-clock-lost (R200). -/
def audioClockLost (f : Word16) (sigloss : Nat) : Bool := !pastThreshold f || sigloss != 0

/-- Status bit 5, disc playing / video detected (R200). -/
def discPlaying (f : Word16) (sigloss : Nat) : Bool := sigloss == 0 && f != 0#16

/-- The combined status byte, bit 7 down to bit 0: clock lost, 0, disc playing, 1, audio-ready, and the
ten-thousands digit in bits 2:0 (R85, R200). -/
def statusByte (f : Word16) (sigloss : Nat) (ready : Bool) : Byte :=
  BitVec.ofBool (audioClockLost f sigloss) ++ BitVec.ofBool false ++
    BitVec.ofBool (discPlaying f sigloss) ++ BitVec.ofBool Config.statusCmdReady ++
    BitVec.ofBool ready ++ BitVec.ofNat 3 (bcdDigit f 4)

/-- The overlay-enable bit differs between the byte last written and the new one (R204). -/
def overlayEdge (c : Configuration) (old v : Byte) : Bool := overlayBit c old != overlayBit c v

/-- The genlock-enable bit differs between the byte last written and the new one (R204). -/
def genlockEdge (c : Configuration) (old v : Byte) : Bool := genlockBit c old != genlockBit c v

end Sys2Proof.Machine
end

