-- ==== Sys2Proof/Machine/State.lean ====
section
/-! DEFINITION. The state of the block as plain data: every field of 10_state.md R20 to R38, and four
fields of the model's own (the last operation's result and output events, the operations presented and
not yet performed, the count of free bits drawn). -/

namespace Sys2Proof.Machine

/-- The block has no fatal condition (60_exceptions.md R220): no operation faults, so there is no reason
a step could fault with. Safe: nothing raises it. -/
inductive Fault where
  deriving DecidableEq, Repr

/-- Why a step or an operation has no meaning. -/
inductive Refusal where
  /-- Raised by an arm of `exec` for an operation the model gives no meaning; no arm does. Safe. -/
  | notModelled (mnemonic : String)
  /-- Raised by `step` on a reserved operation word, which spells no operation (30_encoding.md R91, U4).
  Safe: the spec gives these words no meaning and no agent can produce them. -/
  | reservedWord (why : Reserved)
  /-- Raised by MWR_SOUND in a configuration with a finite FIFO_DEPTH, when the write would exceed it
  (43_mailbox.md R195, U6). Safe: the machine's own FIFO_DEPTH is unbounded, so it never meets this. -/
  | fifoFull (receiver : Proc)
  deriving DecidableEq, Repr

/-- What an operation returns (30_encoding.md R95): a read a byte, DIPSET a Boolean, every other
operation nothing. -/
inductive Result where
  | nothing
  | byte (v : Byte)
  | flag (ok : Bool)
  deriving DecidableEq, Repr

/-- A diagnostic with its recorded information (60_exceptions.md R221). -/
inductive Diag where
  /-- Code 1, DIAG_UNMAPPED_READ: (processor, masked address). -/
  | unmappedRead (p : Proc) (m : Word16)
  /-- Code 2, DIAG_UNMAPPED_WRITE: (processor, masked address, byte). -/
  | unmappedWrite (p : Proc) (m : Word16) (v : Byte)
  /-- Code 3, DIAG_ROM_WRITE: (processor, masked address, byte). -/
  | romWrite (p : Proc) (m : Word16) (v : Byte)
  /-- Code 4, DIAG_MBOX_EMPTY: processor. -/
  | mboxEmpty (p : Proc)
  /-- Code 5, DIAG_STREAM_RANGE: (base_offset, position). -/
  | streamRange (base : Option (BitVec 32)) (position : Nat)
  deriving DecidableEq, Repr

/-- An output event (00_scope.md R14). -/
inductive Event where
  /-- `IrqLine(p, line, level)`: the block drives a line to a level. -/
  | irqLine (line : Line) (level : Bool)
  /-- `LdCommand(c)`: a 16-bit command to the peripheral. -/
  | ldCommand (c : Word16)
  /-- `PaletteRecalc`: the colour-table recomputation is requested. -/
  | paletteRecalc
  /-- `OverlayRedraw(d)`: the redraw step is triggered, d the value of overlay_dirty. -/
  | overlayRedraw (d : Bool)
  /-- `Transparency(t)`: the transparency setting is driven to t. -/
  | transparency (t : Bool)
  /-- `Diag(code, info)`: a diagnostic. -/
  | diag (d : Diag)
  deriving DecidableEq, Repr

/-- A memory image as a list of (address, byte) pairs in one canonical form (`Memory.wf`): addresses
strictly rising, and no entry equal to what an unlisted address reads as. -/
abbrev Memory := List Host.Cell

/-- The machine state (R20). -/
structure State where
  /-- mem[0], the main processor's image (R21). -/
  mem0 : Memory
  /-- mem[1], coprocessor A's image (R21). -/
  mem1 : Memory
  /-- mem[2], coprocessor B's image (R21). -/
  mem2 : Memory
  /-- dip_sw (R22). -/
  dipSw : Byte
  /-- service_sw (R23). -/
  serviceSw : Byte
  /-- ctrl_latch (R24). -/
  ctrlLatch : Byte
  /-- decoder_select: false video, true audio (R25). -/
  decoderSelect : Bool
  /-- audio_ready (R26). -/
  audioReady : Bool
  /-- base_offset (R27). -/
  baseOffset : Option (BitVec 32)
  /-- position, 0..1023 in every reachable state (R28, R39 (a)). -/
  position : Nat
  /-- prev_frame (R29). -/
  prevFrame : Word16
  /-- prev_cmd (R30). -/
  prevCmd : Option Byte
  /-- fifo_a, front first (R31). -/
  fifoA : List Byte
  /-- fifo_b, front first (R31). -/
  fifoB : List Byte
  /-- sigloss (R32). -/
  sigloss : Nat
  /-- palette_dirty (R33). -/
  paletteDirty : Bool
  /-- overlay_dirty (R34). -/
  overlayDirty : Bool
  /-- transparency (R35). -/
  transparency : Bool
  /-- irq_main_periodic, line (0,0) (R36). -/
  irqMainPeriodic : Bool
  /-- irq_a_mbox, line (1,0) (R36). -/
  irqAMbox : Bool
  /-- irq_a_sec, line (1,1) (R36). -/
  irqASec : Bool
  /-- irq_b_mbox, line (2,0) (R36). -/
  irqBMbox : Bool
  /-- irq_b_sec, line (2,1) (R36). -/
  irqBSec : Bool
  /-- b_sec_en (R37). -/
  bSecEn : Bool
  /-- ld_frame (R38). -/
  ldFrame : Word16
  /-- The model's own: the result of the last operation (R95; log 4). -/
  result : Result
  /-- The model's own: the output events of the last operation, in the order emitted (R14, R95; log 4). -/
  events : List Event
  /-- The model's own: the operation words presented and not yet performed, oldest first (R58; log 5). -/
  input : List OpWord
  /-- The model's own: how many free bits have been drawn (U9; log 3). -/
  freeCount : Nat
  deriving DecidableEq, Repr

/-- The power-on state under a configuration (70_reset_and_hazards.md R262): the RESET state of R260, the
images as loaded (no byte written yet, so nothing is listed), and ld_frame = 0. The two dirty flags are
the first two free bits (U9). -/
def State.powerOn (c : Configuration) : State where
  mem0 := []
  mem1 := []
  mem2 := []
  dipSw := c.dipDefault
  serviceSw := c.serviceDefault
  ctrlLatch := 0x00#8
  decoderSelect := false
  audioReady := false
  baseOffset := none
  position := 0
  prevFrame := 0#16
  prevCmd := none
  fifoA := []
  fifoB := []
  sigloss := 0
  paletteDirty := c.freeBit 0
  overlayDirty := c.freeBit 1
  transparency := false
  irqMainPeriodic := false
  irqAMbox := false
  irqASec := false
  irqBMbox := false
  irqBSec := false
  bSecEn := false
  ldFrame := 0#16
  result := .nothing
  events := []
  input := []
  freeCount := 2

/-- The machine right after power-on, in its own configuration (R262). -/
def State.reset : State := State.powerOn Config.machine

end Sys2Proof.Machine
end

