-- ==== Sys2Proof/Machine/Ops.lean ====
section
/-! DEFINITION. The named operations every meaning is made of: results and events, the memory images, the
interrupt lines, the FIFOs, the fallbacks of 60_exceptions.md R221, and taking the next operation word.
The block takes no exception (R220); what stands in that place is driving a line (R225), here
`driveLine`, and its release (R161, R233), which is driving it to 0. -/

namespace Sys2Proof.Machine

/-! ### Results and output events (R14, R95) -/

/-- The start of an operation: no result yet and no event emitted. -/
def startOp (s : State) : State := { s with result := .nothing, events := [] }

/-- `emit E`: append an event to the operation's output list (R13). -/
def emit (e : Event) (s : State) : State := { s with events := s.events ++ [e] }

/-- `return v` of a read (R13, R95). -/
def returnByte (v : Byte) (s : State) : State := { s with result := .byte v }

/-- `return ok` or `return fail` of DIPSET (R95). -/
def returnFlag (ok : Bool) (s : State) : State := { s with result := .flag ok }

/-- Diagnostic codes 1 to 5 (R221, D24). -/
def diagCode : Diag → Nat
  | .unmappedRead _ _ => 1
  | .unmappedWrite _ _ _ => 2
  | .romWrite _ _ _ => 3
  | .mboxEmpty _ => 4
  | .streamRange _ _ => 5

/-! ### Memory images (R21, R262) -/

/-- The byte of processor p's image at address a right after power-on (R262): INIT_MEM, with the first
NVRAM_LEN bytes of the main image replaced by the persisted copy where the host has one. It is what an
address the memory does not list reads as. -/
def powerOnByte (c : Configuration) (p : Proc) (a : Nat) : Byte :=
  match p, c.persisted with
  | .main, some saved => if a < Config.nvramLen then saved a else c.initMem .main a
  | _, _ => c.initMem p a

/-- The byte at an address: the listed one, or what an unlisted address reads as. -/
def memRead (unlisted : Nat → Byte) : Memory → Nat → Byte
  | [], a => unlisted a
  | (b, v) :: rest, a => if a = b then v else memRead unlisted rest a

/-- Store a byte, keeping the canonical form: writing what an unlisted address reads as removes the entry. -/
def memWrite (unlisted : Nat → Byte) : Memory → Nat → Byte → Memory
  | [], a, v => if v = unlisted a then [] else [(a, v)]
  | (b, w) :: rest, a, v =>
    if a < b then (if v = unlisted a then (b, w) :: rest else (a, v) :: (b, w) :: rest)
    else if a = b then (if v = unlisted a then rest else (a, v) :: rest)
    else (b, w) :: memWrite unlisted rest a v

/-- The canonical form: addresses inside the image and strictly rising from a bound, and no entry equal to
what an unlisted address reads as. -/
def memWfFrom (unlisted : Nat → Byte) : Nat → Memory → Bool
  | _, [] => true
  | lo, (a, v) :: rest =>
    decide (lo ≤ a) && decide (a < Config.memSize) && (v != unlisted a) && memWfFrom unlisted (a + 1) rest

/-- The canonical form holds of a whole image. -/
def Memory.wf (unlisted : Nat → Byte) (m : Memory) : Bool := memWfFrom unlisted 0 m

/-- mem[p] (R21). -/
def image (p : Proc) (s : State) : Memory :=
  match p with
  | .main => s.mem0
  | .copA => s.mem1
  | .copB => s.mem2

/-- Replace mem[p]. -/
def setImage (p : Proc) (m : Memory) (s : State) : State :=
  match p with
  | .main => { s with mem0 := m }
  | .copA => { s with mem1 := m }
  | .copB => { s with mem2 := m }

/-- `mem[p][m]`: one byte of processor p's image (R13). -/
def readByte (c : Configuration) (p : Proc) (a : Nat) (s : State) : Byte :=
  memRead (powerOnByte c p) (image p s) a

/-- `mem[p][m] <- v` (R13). -/
def storeByte (c : Configuration) (p : Proc) (a : Nat) (v : Byte) (s : State) : State :=
  setImage p (memWrite (powerOnByte c p) (image p s) a v) s

/-- The bytes the host must save at the end of a session: mem[0][0..4095] (R264). -/
def batteryBytes (c : Configuration) (s : State) : List Byte :=
  (List.range Config.nvramLen).map fun a => readByte c .main a s

/-- The configuration the host starts the next session with: the battery-backed bytes of s restored
byte for byte (R246, R264). DESIGN CHOICE (log 3, log 12): the two dirty flags of that session's power-on are
any value (R33, R34, R262, U9), so its free bits go on with the draws this session has not taken, and nothing
ties them to this session's flags. -/
def nextSession (c : Configuration) (s : State) : Configuration :=
  { c with persisted := some fun a => readByte c .main a s, freeBit := fun n => c.freeBit (s.freeCount + n) }

/-! ### Plain accesses and fallbacks (40_router.md) -/

/-- A read of RAM or ROM: `return mem[p][m]` (R111 to R113, R116, R117, R126, R127, R133, R134). -/
def readStored (c : Configuration) (p : Proc) (addr : BusAddr) (s : State) : State :=
  returnByte (readByte c p (maskAddr addr).toNat s) (startOp s)

/-- A write of RAM: `mem[p][m] <- v` (R118, R119, R129, R137). -/
def writeStored (c : Configuration) (p : Proc) (addr : BusAddr) (v : Byte) (s : State) : State :=
  storeByte c p (maskAddr addr).toNat v (startOp s)

/-- A write of ROM: a diagnostic, and the byte is stored all the same (R122, R130, R138). -/
def writeRom (c : Configuration) (p : Proc) (addr : BusAddr) (v : Byte) (s : State) : State :=
  storeByte c p (maskAddr addr).toNat v (emit (.diag (.romWrite p (maskAddr addr) v)) (startOp s))

/-- An unmapped or undefined-register read: a diagnostic and the stable default (R114, R115, R128, R135,
R136, R141). -/
def readUnmapped (c : Configuration) (p : Proc) (addr : BusAddr) (s : State) : State :=
  returnByte c.unmappedReadValue (emit (.diag (.unmappedRead p (maskAddr addr))) (startOp s))

/-- An unmapped or undefined-register write: a diagnostic and no other effect (R124, R125, R131, R132,
R139, R140, R141). -/
def writeUnmapped (p : Proc) (addr : BusAddr) (v : Byte) (s : State) : State :=
  emit (.diag (.unmappedWrite p (maskAddr addr) v)) (startOp s)

/-! ### Interrupt lines (R36, R225) -/

/-- `line_level(p, l)`. -/
def lineLevel (l : Line) (s : State) : Bool :=
  match l with
  | .mainPeriodic => s.irqMainPeriodic
  | .aMbox => s.irqAMbox
  | .aSec => s.irqASec
  | .bMbox => s.irqBMbox
  | .bSec => s.irqBSec

/-- `line_level(p, l) <- level`. -/
def setLine (l : Line) (level : Bool) (s : State) : State :=
  match l with
  | .mainPeriodic => { s with irqMainPeriodic := level }
  | .aMbox => { s with irqAMbox := level }
  | .aSec => { s with irqASec := level }
  | .bMbox => { s with irqBMbox := level }
  | .bSec => { s with irqBSec := level }

/-- Drive a line to a level and announce it (R14, R225). -/
def driveLine (l : Line) (level : Bool) (s : State) : State :=
  emit (.irqLine l level) (setLine l level s)

/-- The edge discipline: clear, then reassert (R154, R156). -/
def pulseLine (l : Line) (s : State) : State := driveLine l true (driveLine l false s)

/-! ### FIFOs (R31, R195) -/

/-- `push(q, v)`: append at the back (R13). -/
def push (q : List Byte) (v : Byte) : List Byte := q ++ [v]

/-- Whether one more byte fits: always, unless the configuration has a finite FIFO_DEPTH (R195). -/
def hasRoom (c : Configuration) (q : List Byte) : Bool :=
  match c.fifoDepth with
  | none => true
  | some d => decide (q.length < d)

/-! ### Taking the next operation (R58, R80) -/

/-- The oldest operation word presented and the state without it, or nothing when none is pending. -/
def takeWord (s : State) : Option (OpWord × State) :=
  match s.input with
  | [] => none
  | w :: rest => some (w, { s with input := rest })

/-- Present an operation word as the next one to be performed. -/
def presentNext (w : OpWord) (s : State) : State := { s with input := w :: s.input }

end Sys2Proof.Machine
end

