-- ==== Sys2Proof/Machine/Mailbox.lean ====
section
/-! DEFINITION. The Inter-Processor Mailbox (43_mailbox.md): the sound-register write and the two
mailbox reads. -/

namespace Sys2Proof.Machine

/-- The half of MWR_SOUND that goes to coprocessor A (R190). -/
def sendToA (v : Byte) (s : State) : State := driveLine .aMbox true { s with fifoA := push s.fifoA v }

/-- The half of MWR_SOUND that goes to coprocessor B, for a byte that is not zero (R190). -/
def sendToB (v : Byte) (s : State) : State := driveLine .bMbox true { s with fifoB := push s.fifoB v }

/-- MWR_SOUND under a configuration (R190): A always, then B when the byte is not zero. A finite
FIFO_DEPTH that the write would exceed is refused (R195, U6). -/
def writeSound (c : Configuration) (v : Byte) (s : State) : Host.Outcome State Fault Refusal :=
  if hasRoom c s.fifoA then
    if v = 0x00#8 then .next (sendToA v (startOp s))
    else if hasRoom c s.fifoB then .next (sendToB v (sendToA v (startOp s)))
    else .refused (.fifoFull .copB)
  else .refused (.fifoFull .copA)

/-- ARD_MBOX under a configuration (R192, R194): one byte, or the empty default and a diagnostic. -/
def readMboxA (c : Configuration) (s : State) : State :=
  match s.fifoA with
  | [] => returnByte c.mboxEmptyValue (emit (.diag (.mboxEmpty .copA)) (startOp s))
  | v :: rest => returnByte v { startOp s with fifoA := rest }

/-- BRD_MBOX under a configuration (R193, R194). -/
def readMboxB (c : Configuration) (s : State) : State :=
  match s.fifoB with
  | [] => returnByte c.mboxEmptyValue (emit (.diag (.mboxEmpty .copB)) (startOp s))
  | v :: rest => returnByte v { startOp s with fifoB := rest }

/-- MWR_SOUND (R190). -/
def execMwrSound (_addr : BusAddr) (v : Byte) (s : State) : Host.Outcome State Fault Refusal :=
  writeSound Config.machine v s

/-- ARD_MBOX (R192): the line is not touched (D18). -/
def execArdMbox (_addr : BusAddr) (s : State) : Host.Outcome State Fault Refusal :=
  .next (readMboxA Config.machine s)

/-- BRD_MBOX (R193): the line is not touched (D18). -/
def execBrdMbox (_addr : BusAddr) (s : State) : Host.Outcome State Fault Refusal :=
  .next (readMboxB Config.machine s)

end Sys2Proof.Machine
end

