-- ==== Sys2Proof/Machine/Stream.lean ====
section
/-! DEFINITION. The Target-Data Stream Engine (42_stream.md): the per-field update, the shared
status/data register, decoder select, the peripheral command register and the stream reset. -/

namespace Sys2Proof.Machine

/-- `stream_field_update()`, step 5 of TICK (R170 to R173): a qualifying transition loads the packet, a
same-frame re-tick clears the ready flag, and every tick remembers the frame. -/
def streamFieldUpdate (s : State) : State :=
  if qualifies s.ldFrame s.prevFrame then
    { s with baseOffset := some (packetBase (packetIndex s.ldFrame)), position := 0, audioReady := true,
             prevFrame := s.ldFrame }
  else if reTick s.ldFrame s.prevFrame then
    { s with audioReady := false, prevFrame := s.ldFrame }
  else
    { s with prevFrame := s.ldFrame }

/-- The table index the next audio read uses, when a packet is loaded and the index is inside the table
(R175); the sum is not wrapped (R180). -/
def streamIndex (c : Configuration) (s : State) : Option Nat :=
  match s.baseOffset with
  | some b => if b.toNat + s.position < c.tableLen then some (b.toNat + s.position) else none
  | none => none

/-- `position <- (position + 1) mod 1024` (R28, R174). -/
def advance (s : State) : State := { s with position := (s.position + 1) % Config.packetLen }

/-- `stream_byte()` as the result of the read, with its diagnostic where no valid byte exists (R175). -/
def streamByte (c : Configuration) (s : State) : State :=
  match streamIndex c s with
  | some k => returnByte (c.table k) s
  | none => returnByte c.unmappedReadValue (emit (.diag (.streamRange s.baseOffset s.position)) s)

/-- MRD_LDDATA under a configuration (R174): video digits, or the stream byte and the advance. -/
def readLddata (c : Configuration) (s : State) : State :=
  if s.decoderSelect then advance (streamByte c (startOp s))
  else returnByte (frameMidByte s.ldFrame) (startOp s)

/-- MWR_LDSEL under a configuration (R176). -/
def writeLdsel (c : Configuration) (v : Byte) (s : State) : State :=
  { startOp s with decoderSelect := ldSelFlag c v }

/-- MWR_LDCMD under a configuration (R177): the command is forwarded, the pause edge rewinds the cursor
and sets the flag, and the byte is remembered whatever happened. -/
def writeLdcmd (c : Configuration) (v : Byte) (s : State) : State :=
  if pauseEdge c v s.prevCmd s.ldFrame then
    { emit (.ldCommand (zext16 v)) (startOp s) with position := 0, audioReady := true, prevCmd := some v }
  else
    { emit (.ldCommand (zext16 v)) (startOp s) with prevCmd := some v }

/-- The five stream fields at their reset values (R178). -/
def resetStream (s : State) : State :=
  { s with baseOffset := none, position := 0, audioReady := false, prevFrame := 0#16, prevCmd := none }

/-- MRD_LDDATA (R174). -/
def execMrdLddata (_addr : BusAddr) (s : State) : Host.Outcome State Fault Refusal :=
  .next (readLddata Config.machine s)

/-- MWR_LDSEL (R176). -/
def execMwrLdsel (_addr : BusAddr) (v : Byte) (s : State) : Host.Outcome State Fault Refusal :=
  .next (writeLdsel Config.machine v s)

/-- MWR_LDCMD (R177). -/
def execMwrLdcmd (_addr : BusAddr) (v : Byte) (s : State) : Host.Outcome State Fault Refusal :=
  .next (writeLdcmd Config.machine v s)

/-- LDRESET (R178): the stream engine alone; nothing is emitted. -/
def execLdreset (s : State) : Host.Outcome State Fault Refusal :=
  .next (resetStream (startOp s))

end Sys2Proof.Machine
end

