-- ==== Sys2Proof/Machine/Reset.lean ====
section
/-! DEFINITION. The full machine reset (70_reset_and_hazards.md R260, R261). -/

namespace Sys2Proof.Machine

/-- The register bank, FIFOs, counter, flags and lines at their reset values; the two dirty flags are
fresh free bits (U9); the memory images and ld_frame are kept (R261). -/
def resetAll (c : Configuration) (s : State) : State :=
  { resetStream s with
    dipSw := c.dipDefault, serviceSw := c.serviceDefault, ctrlLatch := 0x00#8, transparency := false,
    decoderSelect := false, fifoA := [], fifoB := [], sigloss := 0,
    paletteDirty := c.freeBit s.freeCount, overlayDirty := c.freeBit (s.freeCount + 1),
    freeCount := s.freeCount + 2,
    irqMainPeriodic := false, irqAMbox := false, irqASec := false, irqBMbox := false, irqBSec := false,
    bSecEn := false }

/-- RESET (R260): it emits no event. -/
def execReset (s : State) : Host.Outcome State Fault Refusal := .next (resetAll Config.machine (startOp s))

end Sys2Proof.Machine
end

