-- ==== Sys2Proof/Machine/Router.lean ====
section
/-! DEFINITION. The Address Space Router's own operations (40_router.md): every bus access that lands in
RAM, ROM, an undefined register offset or unmapped space. One definition per operation, each one line over
a shared operation of Ops.lean. -/

namespace Sys2Proof.Machine

/-- Tile RAM write under a configuration (R120): the byte is stored, and overlay_dirty is set only when it
changes. -/
def writeTile (c : Configuration) (addr : BusAddr) (v : Byte) (s : State) : State :=
  if readByte c .main (maskAddr addr).toNat s = v then writeStored c .main addr v s
  else { writeStored c .main addr v s with overlayDirty := true }

/-- Palette RAM write under a configuration (R121): the byte is stored, and palette_dirty is set only when
it changes. -/
def writePalette (c : Configuration) (addr : BusAddr) (v : Byte) (s : State) : State :=
  if readByte c .main (maskAddr addr).toNat s = v then writeStored c .main addr v s
  else { writeStored c .main addr v s with paletteDirty := true }

/-- MRD_LOWRAM: low RAM (R111). -/
def execMrdLowram (addr : BusAddr) (s : State) : Host.Outcome State Fault Refusal :=
  .next (readStored Config.machine .main addr s)

/-- MRD_SPRITE: sprite RAM (R112). -/
def execMrdSprite (addr : BusAddr) (s : State) : Host.Outcome State Fault Refusal :=
  .next (readStored Config.machine .main addr s)

/-- MRD_TILE: tile RAM; a read sets no dirty flag (R113). -/
def execMrdTile (addr : BusAddr) (s : State) : Host.Outcome State Fault Refusal :=
  .next (readStored Config.machine .main addr s)

/-- MRD_PALETTE: palette RAM; a read sets no dirty flag (R116). -/
def execMrdPalette (addr : BusAddr) (s : State) : Host.Outcome State Fault Refusal :=
  .next (readStored Config.machine .main addr s)

/-- MRD_ROM: the loaded byte unless an earlier MWR_ROM overwrote it (R117). -/
def execMrdRom (addr : BusAddr) (s : State) : Host.Outcome State Fault Refusal :=
  .next (readStored Config.machine .main addr s)

/-- MRD_UNDEF: a window address with no read register (R114). -/
def execMrdUndef (addr : BusAddr) (s : State) : Host.Outcome State Fault Refusal :=
  .next (readUnmapped Config.machine .main addr s)

/-- MRD_UNMAPPED: outside every region and the window (R115). -/
def execMrdUnmapped (addr : BusAddr) (s : State) : Host.Outcome State Fault Refusal :=
  .next (readUnmapped Config.machine .main addr s)

/-- MWR_LOWRAM: low RAM (R118). -/
def execMwrLowram (addr : BusAddr) (v : Byte) (s : State) : Host.Outcome State Fault Refusal :=
  .next (writeStored Config.machine .main addr v s)

/-- MWR_SPRITE: sprite RAM; no dirty flag (R119). -/
def execMwrSprite (addr : BusAddr) (v : Byte) (s : State) : Host.Outcome State Fault Refusal :=
  .next (writeStored Config.machine .main addr v s)

/-- MWR_TILE: tile RAM, with change detection (R120). -/
def execMwrTile (addr : BusAddr) (v : Byte) (s : State) : Host.Outcome State Fault Refusal :=
  .next (writeTile Config.machine addr v s)

/-- MWR_PALETTE: palette RAM, with change detection (R121). -/
def execMwrPalette (addr : BusAddr) (v : Byte) (s : State) : Host.Outcome State Fault Refusal :=
  .next (writePalette Config.machine addr v s)

/-- MWR_ROM: logged, and stored all the same (R122). -/
def execMwrRom (addr : BusAddr) (v : Byte) (s : State) : Host.Outcome State Fault Refusal :=
  .next (writeRom Config.machine .main addr v s)

/-- MWR_UNDEF: a window address with no write register (R124). -/
def execMwrUndef (addr : BusAddr) (v : Byte) (s : State) : Host.Outcome State Fault Refusal :=
  .next (writeUnmapped .main addr v s)

/-- MWR_UNMAPPED: outside every region and the window (R125). -/
def execMwrUnmapped (addr : BusAddr) (v : Byte) (s : State) : Host.Outcome State Fault Refusal :=
  .next (writeUnmapped .main addr v s)

/-- ARD_RAM (R126). -/
def execArdRam (addr : BusAddr) (s : State) : Host.Outcome State Fault Refusal :=
  .next (readStored Config.machine .copA addr s)

/-- ARD_ROM (R127). -/
def execArdRom (addr : BusAddr) (s : State) : Host.Outcome State Fault Refusal :=
  .next (readStored Config.machine .copA addr s)

/-- ARD_UNMAPPED (R128). -/
def execArdUnmapped (addr : BusAddr) (s : State) : Host.Outcome State Fault Refusal :=
  .next (readUnmapped Config.machine .copA addr s)

/-- AWR_RAM (R129). -/
def execAwrRam (addr : BusAddr) (v : Byte) (s : State) : Host.Outcome State Fault Refusal :=
  .next (writeStored Config.machine .copA addr v s)

/-- AWR_ROM: the same policy as the main ROM (D26) (R130). -/
def execAwrRom (addr : BusAddr) (v : Byte) (s : State) : Host.Outcome State Fault Refusal :=
  .next (writeRom Config.machine .copA addr v s)

/-- AWR_UNDEF: the address of A's read-only mailbox; fifo_a is untouched (R131). -/
def execAwrUndef (addr : BusAddr) (v : Byte) (s : State) : Host.Outcome State Fault Refusal :=
  .next (writeUnmapped .copA addr v s)

/-- AWR_UNMAPPED (R132). -/
def execAwrUnmapped (addr : BusAddr) (v : Byte) (s : State) : Host.Outcome State Fault Refusal :=
  .next (writeUnmapped .copA addr v s)

/-- BRD_RAM (R133). -/
def execBrdRam (addr : BusAddr) (s : State) : Host.Outcome State Fault Refusal :=
  .next (readStored Config.machine .copB addr s)

/-- BRD_ROM (R134). -/
def execBrdRom (addr : BusAddr) (s : State) : Host.Outcome State Fault Refusal :=
  .next (readStored Config.machine .copB addr s)

/-- BRD_UNDEF: the address of B's write-only control register (R135). -/
def execBrdUndef (addr : BusAddr) (s : State) : Host.Outcome State Fault Refusal :=
  .next (readUnmapped Config.machine .copB addr s)

/-- BRD_UNMAPPED (R136). -/
def execBrdUnmapped (addr : BusAddr) (s : State) : Host.Outcome State Fault Refusal :=
  .next (readUnmapped Config.machine .copB addr s)

/-- BWR_RAM (R137). -/
def execBwrRam (addr : BusAddr) (v : Byte) (s : State) : Host.Outcome State Fault Refusal :=
  .next (writeStored Config.machine .copB addr v s)

/-- BWR_ROM: the same policy as the main ROM (D26) (R138). -/
def execBwrRom (addr : BusAddr) (v : Byte) (s : State) : Host.Outcome State Fault Refusal :=
  .next (writeRom Config.machine .copB addr v s)

/-- BWR_UNDEF: the address of B's read-only mailbox; fifo_b is untouched (R139). -/
def execBwrUndef (addr : BusAddr) (v : Byte) (s : State) : Host.Outcome State Fault Refusal :=
  .next (writeUnmapped .copB addr v s)

/-- BWR_UNMAPPED (R140). -/
def execBwrUnmapped (addr : BusAddr) (v : Byte) (s : State) : Host.Outcome State Fault Refusal :=
  .next (writeUnmapped .copB addr v s)

end Sys2Proof.Machine
end

