-- ==== Sys2Proof/Machine/Scheduler.lean ====
section
/-! DEFINITION. The Frame-Sync Scheduler (41_scheduler.md): the field tick and its six steps, and the
operations that feed it. -/

namespace Sys2Proof.Machine

/-- TICK step 1, palette (R151). -/
def tickPalette (s : State) : State :=
  if s.paletteDirty then { emit .paletteRecalc s with overlayDirty := true, paletteDirty := false } else s

/-- TICK step 2, signal-loss countdown (R152): stops at 0. -/
def tickSigloss (s : State) : State := { s with sigloss := s.sigloss - 1 }

/-- TICK step 3, redraw (R153): emitted at every tick, then the flag is cleared. -/
def tickRedraw (s : State) : State := { emit (.overlayRedraw s.overlayDirty) s with overlayDirty := false }

/-- TICK step 4, main periodic interrupt (R154): always, whatever the level was. -/
def tickMainIrq (s : State) : State := pulseLine .mainPeriodic s

/-- TICK step 6, coprocessor interrupts (R156): A by the constant COP_A_TICK_EN, B by b_sec_en, A first. -/
def tickCopIrq (c : Configuration) (s : State) : State :=
  let sA := if c.copATickEn then pulseLine .aSec s else s
  if sA.bSecEn then pulseLine .bSec sA else sA

/-- TICK under a configuration: the six steps in order (R150, R157). -/
def tickAll (c : Configuration) (s : State) : State :=
  tickCopIrq c (streamFieldUpdate (tickMainIrq (tickRedraw (tickSigloss (tickPalette (startOp s))))))

/-- TICK (R150). -/
def execTick (s : State) : Host.Outcome State Fault Refusal := .next (tickAll Config.machine s)

/-- LDFRAME (R159): the latch and nothing else. -/
def execLdframe (f : Word16) (s : State) : Host.Outcome State Fault Refusal :=
  .next { startOp s with ldFrame := f }

/-- SIGLOSS (R160): the new count replaces the old. -/
def execSigloss (n : BitVec 24) (s : State) : Host.Outcome State Fault Refusal :=
  .next { startOp s with sigloss := n.toNat }

/-- IRQACK (R161): the line is driven to 0; the event is emitted even if it was 0 already. -/
def execIrqack (line : Line) (s : State) : Host.Outcome State Fault Refusal :=
  .next (driveLine line false (startOp s))

/-- BWR_CTRL under a configuration (R162). -/
def writeCopBCtrl (c : Configuration) (v : Byte) (s : State) : State :=
  { startOp s with bSecEn := secEnFlag c v }

/-- BWR_CTRL (R162): coprocessor B's secondary-interrupt enable; the line's level is left alone. -/
def execBwrCtrl (_addr : BusAddr) (v : Byte) (s : State) : Host.Outcome State Fault Refusal :=
  .next (writeCopBCtrl Config.machine v s)

end Sys2Proof.Machine
end

