-- ==== Sys2Proof/Machine/Status.lean ====
section
/-! DEFINITION. The Status/Control Register Bank (44_status_control.md): the status and switch reads, the
control latch, and the two host operations that set the switches. -/

namespace Sys2Proof.Machine

/-- MRD_LDSTATUS (R200): the combined status register; it does not depend on decoder_select. -/
def execMrdLdstatus (_addr : BusAddr) (s : State) : Host.Outcome State Fault Refusal :=
  .next (returnByte (statusByte s.ldFrame s.sigloss s.audioReady) (startOp s))

/-- MRD_LDFRAME (R201): the tens and units digits of the frame number. -/
def execMrdLdframe (_addr : BusAddr) (s : State) : Host.Outcome State Fault Refusal :=
  .next (returnByte (frameLowByte s.ldFrame) (startOp s))

/-- MRD_DIP (R203): the logical switch byte. -/
def execMrdDip (_addr : BusAddr) (s : State) : Host.Outcome State Fault Refusal :=
  .next (returnByte s.dipSw (startOp s))

/-- MRD_SERVICE (R207). -/
def execMrdService (_addr : BusAddr) (s : State) : Host.Outcome State Fault Refusal :=
  .next (returnByte s.serviceSw (startOp s))

/-- The forced redraw of an edge on the overlay-enable bit (R204). -/
def forceOverlayRedraw (c : Configuration) (old v : Byte) (s : State) : State :=
  if overlayEdge c old v then { s with overlayDirty := true } else s

/-- The transparency change and forced redraw of an edge on the genlock bit (R204). -/
def toggleTransparency (c : Configuration) (old v : Byte) (s : State) : State :=
  if genlockEdge c old v then
    { emit (.transparency (genlockBit c v)) s with transparency := genlockBit c v, overlayDirty := true }
  else s

/-- MWR_CTRL under a configuration (R204): the latch always, the side effects only on an edge. -/
def writeCtrl (c : Configuration) (v : Byte) (s : State) : State :=
  toggleTransparency c s.ctrlLatch v
    (forceOverlayRedraw c s.ctrlLatch v { startOp s with ctrlLatch := v })

/-- MWR_CTRL (R204). -/
def execMwrCtrl (_addr : BusAddr) (v : Byte) (s : State) : Host.Outcome State Fault Refusal :=
  .next (writeCtrl Config.machine v s)

/-- DIPSET under a configuration (R205, U14): bank 0 permutes the bits; any other bank fails. -/
def setDip (c : Configuration) (bank : BitVec 24) (value : Byte) (s : State) : State :=
  if bank = 0#24 then
    returnFlag true { startOp s with dipSw := permuteInto c.dipPerm s.dipSw value }
  else returnFlag false (startOp s)

/-- DIPSET (R205). -/
def execDipset (bank : BitVec 24) (value : Byte) (s : State) : Host.Outcome State Fault Refusal :=
  .next (setDip Config.machine bank value s)

/-- SVCSET (R206). -/
def execSvcset (value : Byte) (s : State) : Host.Outcome State Fault Refusal :=
  .next { startOp s with serviceSw := value }

end Sys2Proof.Machine
end

