-- ==== Sys2Proof/Machine/Dispatch.lean ====
section
/-! DEFINITION. The dispatch: one arm per operation, in the order of spec/opcode_table.json. -/

namespace Sys2Proof.Machine

/-- Every operation completes as one atomic step (20_memory.md R58, 60_exceptions.md R220). -/
def exec (i : Instr) (s : State) : Host.Outcome State Fault Refusal :=
  match i with
  | .mrdLowram addr => Sys2Proof.Machine.execMrdLowram addr s
  | .mrdSprite addr => Sys2Proof.Machine.execMrdSprite addr s
  | .mrdTile addr => Sys2Proof.Machine.execMrdTile addr s
  | .mrdPalette addr => Sys2Proof.Machine.execMrdPalette addr s
  | .mrdDip addr => Sys2Proof.Machine.execMrdDip addr s
  | .mrdService addr => Sys2Proof.Machine.execMrdService addr s
  | .mrdLdframe addr => Sys2Proof.Machine.execMrdLdframe addr s
  | .mrdLddata addr => Sys2Proof.Machine.execMrdLddata addr s
  | .mrdLdstatus addr => Sys2Proof.Machine.execMrdLdstatus addr s
  | .mrdUndef addr => Sys2Proof.Machine.execMrdUndef addr s
  | .mrdRom addr => Sys2Proof.Machine.execMrdRom addr s
  | .mrdUnmapped addr => Sys2Proof.Machine.execMrdUnmapped addr s
  | .mwrLowram addr v => Sys2Proof.Machine.execMwrLowram addr v s
  | .mwrSprite addr v => Sys2Proof.Machine.execMwrSprite addr v s
  | .mwrTile addr v => Sys2Proof.Machine.execMwrTile addr v s
  | .mwrPalette addr v => Sys2Proof.Machine.execMwrPalette addr v s
  | .mwrSound addr v => Sys2Proof.Machine.execMwrSound addr v s
  | .mwrCtrl addr v => Sys2Proof.Machine.execMwrCtrl addr v s
  | .mwrLdcmd addr v => Sys2Proof.Machine.execMwrLdcmd addr v s
  | .mwrLdsel addr v => Sys2Proof.Machine.execMwrLdsel addr v s
  | .mwrUndef addr v => Sys2Proof.Machine.execMwrUndef addr v s
  | .mwrRom addr v => Sys2Proof.Machine.execMwrRom addr v s
  | .mwrUnmapped addr v => Sys2Proof.Machine.execMwrUnmapped addr v s
  | .ardRam addr => Sys2Proof.Machine.execArdRam addr s
  | .ardMbox addr => Sys2Proof.Machine.execArdMbox addr s
  | .ardRom addr => Sys2Proof.Machine.execArdRom addr s
  | .ardUnmapped addr => Sys2Proof.Machine.execArdUnmapped addr s
  | .awrRam addr v => Sys2Proof.Machine.execAwrRam addr v s
  | .awrUndef addr v => Sys2Proof.Machine.execAwrUndef addr v s
  | .awrRom addr v => Sys2Proof.Machine.execAwrRom addr v s
  | .awrUnmapped addr v => Sys2Proof.Machine.execAwrUnmapped addr v s
  | .brdRam addr => Sys2Proof.Machine.execBrdRam addr s
  | .brdUndef addr => Sys2Proof.Machine.execBrdUndef addr s
  | .brdMbox addr => Sys2Proof.Machine.execBrdMbox addr s
  | .brdRom addr => Sys2Proof.Machine.execBrdRom addr s
  | .brdUnmapped addr => Sys2Proof.Machine.execBrdUnmapped addr s
  | .bwrRam addr v => Sys2Proof.Machine.execBwrRam addr v s
  | .bwrCtrl addr v => Sys2Proof.Machine.execBwrCtrl addr v s
  | .bwrUndef addr v => Sys2Proof.Machine.execBwrUndef addr v s
  | .bwrRom addr v => Sys2Proof.Machine.execBwrRom addr v s
  | .bwrUnmapped addr v => Sys2Proof.Machine.execBwrUnmapped addr v s
  | .tick => Sys2Proof.Machine.execTick s
  | .reset => Sys2Proof.Machine.execReset s
  | .ldreset => Sys2Proof.Machine.execLdreset s
  | .dipset bank value => Sys2Proof.Machine.execDipset bank value s
  | .svcset value => Sys2Proof.Machine.execSvcset value s
  | .sigloss n => Sys2Proof.Machine.execSigloss n s
  | .irqack line => Sys2Proof.Machine.execIrqack line s
  | .ldframe f => Sys2Proof.Machine.execLdframe f s

end Sys2Proof.Machine
end

