-- ==== Sys2Proof/Machine/Step.lean ====
section
/-! DEFINITION. One step: the oldest presented operation is decoded and performed (00_scope.md R6,
20_memory.md R58). With none pending the block waits: it performs nothing, returns nothing and emits
nothing (log 6). -/

namespace Sys2Proof.Machine

/-- One step of the machine. A reserved word is refused and changes no state (30_encoding.md R91). -/
def step (s : State) : Host.Outcome State Fault Refusal :=
  match takeWord s with
  | none => .next (startOp s)
  | some (w, s') =>
    match decode w with
    | .ok i => exec i s'
    | .error why => .refused (.reservedWord why)

/-- The state with an operation word, numbered as the opcode table numbers its bits, presented as the next
operation. -/
def State.withFetchWord (s : State) (nbits w : Nat) : State := presentNext (opWordOf nbits w) s

end Sys2Proof.Machine
end

