-- ==== Sys2Proof/Machine/OpTable.lean ====
section
/-! DEFINITION. spec/opcode_table.json as data, row for row in file order, and the reading of it that
30_encoding.md R89 gives: a row matches a word when `w AND mask = match`, the masked address lies in one of
its ranges, and, for IRQACK, the pair is legal; a decoder takes the first row that matches. It is a second
account of the decode, to be held against R86's. -/

namespace Sys2Proof

/-- One row (R89). -/
structure OpRow where
  /-- The row's mnemonic, letter for letter. -/
  mnemonic : String
  /-- `match`. -/
  pattern : OpWord
  /-- `mask`. -/
  mask : OpWord
  /-- `addr_ranges` on `w[23:8]`; an empty list tests nothing. -/
  ranges : List AddrRange
  /-- `legal_pairs` on (`w[11:10]`, `w[9:8]`); an empty list tests nothing. -/
  pairs : List (Nat × Nat)
  deriving DecidableEq, Repr

/-- Whether a row matches a word (R89). -/
def rowMatches (r : OpRow) (w : OpWord) : Bool :=
  w &&& r.mask == r.pattern &&
    (r.ranges.isEmpty || r.ranges.any fun g => g.has (w.extractLsb' 8 16).toNat) &&
    (r.pairs.isEmpty || r.pairs.contains ((w.extractLsb' 10 2).toNat, (w.extractLsb' 8 2).toNat))

/-- The rows of the main-processor reads. -/
def rowsMainReads : List OpRow :=
  [⟨"MRD_LOWRAM", 0x0000000000, 0xFF000000FF, [⟨0x0000, 0x0FFF⟩], []⟩,
   ⟨"MRD_SPRITE", 0x0000000000, 0xFF000000FF, [⟨0x3000, 0x37FF⟩], []⟩,
   ⟨"MRD_TILE", 0x0000000000, 0xFF000000FF, [⟨0x3800, 0x4FFF⟩], []⟩,
   ⟨"MRD_PALETTE", 0x0000000000, 0xFF000000FF, [⟨0x5000, 0x501F⟩], []⟩,
   ⟨"MRD_DIP", 0x0000000000, 0xFF000000FF, [⟨0x5800, 0x5800⟩], []⟩,
   ⟨"MRD_SERVICE", 0x0000000000, 0xFF000000FF, [⟨0x5801, 0x5801⟩], []⟩,
   ⟨"MRD_LDFRAME", 0x0000000000, 0xFF000000FF, [⟨0x5805, 0x5805⟩], []⟩,
   ⟨"MRD_LDDATA", 0x0000000000, 0xFF000000FF, [⟨0x5806, 0x5806⟩], []⟩,
   ⟨"MRD_LDSTATUS", 0x0000000000, 0xFF000000FF, [⟨0x5807, 0x5807⟩], []⟩,
   ⟨"MRD_UNDEF", 0x0000000000, 0xFF000000FF, [⟨0x5802, 0x5804⟩], []⟩,
   ⟨"MRD_ROM", 0x0000000000, 0xFF000000FF, [⟨0x6000, 0xFFFF⟩], []⟩,
   ⟨"MRD_UNMAPPED", 0x0000000000, 0xFF000000FF, [⟨0x1000, 0x2FFF⟩, ⟨0x5020, 0x57FF⟩, ⟨0x5808, 0x5FFF⟩], []⟩]

/-- The rows of the main-processor writes. -/
def rowsMainWrites : List OpRow :=
  [⟨"MWR_LOWRAM", 0x0200000000, 0xFF00000000, [⟨0x0000, 0x0FFF⟩], []⟩,
   ⟨"MWR_SPRITE", 0x0200000000, 0xFF00000000, [⟨0x3000, 0x37FF⟩], []⟩,
   ⟨"MWR_TILE", 0x0200000000, 0xFF00000000, [⟨0x3800, 0x4FFF⟩], []⟩,
   ⟨"MWR_PALETTE", 0x0200000000, 0xFF00000000, [⟨0x5000, 0x501F⟩], []⟩,
   ⟨"MWR_SOUND", 0x0200000000, 0xFF00000000, [⟨0x5802, 0x5802⟩], []⟩,
   ⟨"MWR_CTRL", 0x0200000000, 0xFF00000000, [⟨0x5803, 0x5803⟩], []⟩,
   ⟨"MWR_LDCMD", 0x0200000000, 0xFF00000000, [⟨0x5805, 0x5805⟩], []⟩,
   ⟨"MWR_LDSEL", 0x0200000000, 0xFF00000000, [⟨0x5806, 0x5806⟩], []⟩,
   ⟨"MWR_UNDEF", 0x0200000000, 0xFF00000000, [⟨0x5800, 0x5801⟩, ⟨0x5804, 0x5804⟩, ⟨0x5807, 0x5807⟩], []⟩,
   ⟨"MWR_ROM", 0x0200000000, 0xFF00000000, [⟨0x6000, 0xFFFF⟩], []⟩,
   ⟨"MWR_UNMAPPED", 0x0200000000, 0xFF00000000, [⟨0x1000, 0x2FFF⟩, ⟨0x5020, 0x57FF⟩, ⟨0x5808, 0x5FFF⟩], []⟩]

/-- The rows of the coprocessor A. -/
def rowsCopA : List OpRow :=
  [⟨"ARD_RAM", 0x0400000000, 0xFF000000FF, [⟨0x0000, 0x03FF⟩], []⟩,
   ⟨"ARD_MBOX", 0x0400000000, 0xFF000000FF, [⟨0x8000, 0x8000⟩], []⟩,
   ⟨"ARD_ROM", 0x0400000000, 0xFF000000FF, [⟨0xC000, 0xFFFF⟩], []⟩,
   ⟨"ARD_UNMAPPED", 0x0400000000, 0xFF000000FF, [⟨0x0400, 0x7FFF⟩, ⟨0x8001, 0xBFFF⟩], []⟩,
   ⟨"AWR_RAM", 0x0600000000, 0xFF00000000, [⟨0x0000, 0x03FF⟩], []⟩,
   ⟨"AWR_UNDEF", 0x0600000000, 0xFF00000000, [⟨0x8000, 0x8000⟩], []⟩,
   ⟨"AWR_ROM", 0x0600000000, 0xFF00000000, [⟨0xC000, 0xFFFF⟩], []⟩,
   ⟨"AWR_UNMAPPED", 0x0600000000, 0xFF00000000, [⟨0x0400, 0x7FFF⟩, ⟨0x8001, 0xBFFF⟩], []⟩]

/-- The rows of the coprocessor B. -/
def rowsCopB : List OpRow :=
  [⟨"BRD_RAM", 0x0800000000, 0xFF000000FF, [⟨0x0000, 0x03FF⟩], []⟩,
   ⟨"BRD_UNDEF", 0x0800000000, 0xFF000000FF, [⟨0x8000, 0x8000⟩], []⟩,
   ⟨"BRD_MBOX", 0x0800000000, 0xFF000000FF, [⟨0xA000, 0xA000⟩], []⟩,
   ⟨"BRD_ROM", 0x0800000000, 0xFF000000FF, [⟨0xC000, 0xFFFF⟩], []⟩,
   ⟨"BRD_UNMAPPED", 0x0800000000, 0xFF000000FF, [⟨0x0400, 0x7FFF⟩, ⟨0x8001, 0x9FFF⟩, ⟨0xA001, 0xBFFF⟩], []⟩,
   ⟨"BWR_RAM", 0x0A00000000, 0xFF00000000, [⟨0x0000, 0x03FF⟩], []⟩,
   ⟨"BWR_CTRL", 0x0A00000000, 0xFF00000000, [⟨0x8000, 0x8000⟩], []⟩,
   ⟨"BWR_UNDEF", 0x0A00000000, 0xFF00000000, [⟨0xA000, 0xA000⟩], []⟩,
   ⟨"BWR_ROM", 0x0A00000000, 0xFF00000000, [⟨0xC000, 0xFFFF⟩], []⟩,
   ⟨"BWR_UNMAPPED", 0x0A00000000, 0xFF00000000, [⟨0x0400, 0x7FFF⟩, ⟨0x8001, 0x9FFF⟩, ⟨0xA001, 0xBFFF⟩], []⟩]

/-- The rows of the TICK and the environment operations. -/
def rowsEnv : List OpRow :=
  [⟨"TICK", 0x1000000000, 0xFFFFFFFFFF, [], []⟩,
   ⟨"RESET", 0x2000000000, 0xFFFFFFFFFF, [], []⟩,
   ⟨"LDRESET", 0x2100000000, 0xFFFFFFFFFF, [], []⟩,
   ⟨"DIPSET", 0x2200000000, 0xFF00000000, [], []⟩,
   ⟨"SVCSET", 0x2300000000, 0xFFFFFFFF00, [], []⟩,
   ⟨"SIGLOSS", 0x2400000000, 0xFF000000FF, [], []⟩,
   ⟨"IRQACK", 0x2500000000, 0xFFFFFFF0FF, [], [(0, 0), (1, 0), (1, 1), (2, 0), (2, 1)]⟩,
   ⟨"LDFRAME", 0x2600000000, 0xFFFF0000FF, [], []⟩]

/-- The whole table, in file order. -/
def opTable : List OpRow := rowsMainReads ++ rowsMainWrites ++ rowsCopA ++ rowsCopB ++ rowsEnv

/-- The mnemonic of the first row that matches, if any does (R89). -/
def tableMnemonic (w : OpWord) : Option String := (opTable.find? (rowMatches · w)).map (·.mnemonic)

/-- The mnemonic of an operation, as the table spells it. -/
def Instr.mnemonic : Instr → String
  | .mrdLowram _ => "MRD_LOWRAM"
  | .mrdSprite _ => "MRD_SPRITE"
  | .mrdTile _ => "MRD_TILE"
  | .mrdPalette _ => "MRD_PALETTE"
  | .mrdDip _ => "MRD_DIP"
  | .mrdService _ => "MRD_SERVICE"
  | .mrdLdframe _ => "MRD_LDFRAME"
  | .mrdLddata _ => "MRD_LDDATA"
  | .mrdLdstatus _ => "MRD_LDSTATUS"
  | .mrdUndef _ => "MRD_UNDEF"
  | .mrdRom _ => "MRD_ROM"
  | .mrdUnmapped _ => "MRD_UNMAPPED"
  | .mwrLowram _ _ => "MWR_LOWRAM"
  | .mwrSprite _ _ => "MWR_SPRITE"
  | .mwrTile _ _ => "MWR_TILE"
  | .mwrPalette _ _ => "MWR_PALETTE"
  | .mwrSound _ _ => "MWR_SOUND"
  | .mwrCtrl _ _ => "MWR_CTRL"
  | .mwrLdcmd _ _ => "MWR_LDCMD"
  | .mwrLdsel _ _ => "MWR_LDSEL"
  | .mwrUndef _ _ => "MWR_UNDEF"
  | .mwrRom _ _ => "MWR_ROM"
  | .mwrUnmapped _ _ => "MWR_UNMAPPED"
  | .ardRam _ => "ARD_RAM"
  | .ardMbox _ => "ARD_MBOX"
  | .ardRom _ => "ARD_ROM"
  | .ardUnmapped _ => "ARD_UNMAPPED"
  | .awrRam _ _ => "AWR_RAM"
  | .awrUndef _ _ => "AWR_UNDEF"
  | .awrRom _ _ => "AWR_ROM"
  | .awrUnmapped _ _ => "AWR_UNMAPPED"
  | .brdRam _ => "BRD_RAM"
  | .brdUndef _ => "BRD_UNDEF"
  | .brdMbox _ => "BRD_MBOX"
  | .brdRom _ => "BRD_ROM"
  | .brdUnmapped _ => "BRD_UNMAPPED"
  | .bwrRam _ _ => "BWR_RAM"
  | .bwrCtrl _ _ => "BWR_CTRL"
  | .bwrUndef _ _ => "BWR_UNDEF"
  | .bwrRom _ _ => "BWR_ROM"
  | .bwrUnmapped _ _ => "BWR_UNMAPPED"
  | .tick => "TICK"
  | .reset => "RESET"
  | .ldreset => "LDRESET"
  | .dipset _ _ => "DIPSET"
  | .svcset _ => "SVCSET"
  | .sigloss _ => "SIGLOSS"
  | .irqack _ => "IRQACK"
  | .ldframe _ => "LDFRAME"

/-- The mnemonic the decoder gives a word, if it spells an operation. -/
def decodedMnemonic (w : OpWord) : Option String :=
  match decode w with
  | .ok i => some i.mnemonic
  | .error _ => none

end Sys2Proof
end

