-- ==== Sys2Proof/Safety.lean ====
section
/-! DEFINITION. The words the statements use: which agent issues an operation (00_scope.md R7,
60_exceptions.md R240), the invariants of 10_state.md R39, runs of several operations, and what a run
sends and receives through the mailboxes. -/

namespace Sys2Proof

/-- The agents that issue operations (R7, R240). -/
inductive Agent where
  | proc (p : Proc)
  | tickSource
  | peripheral
  | host
  | collaborator
  deriving DecidableEq, Repr

/-- The agent that issues an operation (R7, R240). -/
def Instr.agent : Instr → Agent
  | .mrdLowram _ | .mrdSprite _ | .mrdTile _ | .mrdPalette _ | .mrdDip _ | .mrdService _
  | .mrdLdframe _ | .mrdLddata _ | .mrdLdstatus _ | .mrdUndef _ | .mrdRom _ | .mrdUnmapped _ => .proc .main
  | .mwrLowram _ _ | .mwrSprite _ _ | .mwrTile _ _ | .mwrPalette _ _ | .mwrSound _ _ | .mwrCtrl _ _
  | .mwrLdcmd _ _ | .mwrLdsel _ _ | .mwrUndef _ _ | .mwrRom _ _ | .mwrUnmapped _ _ => .proc .main
  | .ardRam _ | .ardMbox _ | .ardRom _ | .ardUnmapped _ => .proc .copA
  | .awrRam _ _ | .awrUndef _ _ | .awrRom _ _ | .awrUnmapped _ _ => .proc .copA
  | .brdRam _ | .brdUndef _ | .brdMbox _ | .brdRom _ | .brdUnmapped _ => .proc .copB
  | .bwrRam _ _ | .bwrCtrl _ _ | .bwrUndef _ _ | .bwrRom _ _ | .bwrUnmapped _ _ => .proc .copB
  | .tick => .tickSource
  | .ldreset | .sigloss _ | .ldframe _ => .peripheral
  | .reset | .dipset _ _ | .svcset _ => .host
  | .irqack _ => .collaborator

/-- A byte read by a processor: the operations that return a byte (R95). -/
def Instr.isBusRead : Instr → Bool
  | .mrdLowram _ | .mrdSprite _ | .mrdTile _ | .mrdPalette _ | .mrdDip _ | .mrdService _
  | .mrdLdframe _ | .mrdLddata _ | .mrdLdstatus _ | .mrdUndef _ | .mrdRom _ | .mrdUnmapped _ => true
  | .ardRam _ | .ardMbox _ | .ardRom _ | .ardUnmapped _ => true
  | .brdRam _ | .brdUndef _ | .brdMbox _ | .brdRom _ | .brdUnmapped _ => true
  | _ => false

/-- A write to a memory image: RAM or ROM of the processor that issues it (R21). -/
def Instr.storesImage : Instr → Bool
  | .mwrLowram _ _ | .mwrSprite _ _ | .mwrTile _ _ | .mwrPalette _ _ | .mwrRom _ _ => true
  | .awrRam _ _ | .awrRom _ _ => true
  | .bwrRam _ _ | .bwrRom _ _ => true
  | _ => false

namespace Machine

/-- An event that reports a recoverable condition (R221). -/
def Event.isDiag : Event → Bool
  | .diag _ => true
  | _ => false

/-- An event that drives an interrupt line (R225). -/
def Event.isIrq : Event → Bool
  | .irqLine _ _ => true
  | _ => false

/-- The packet index of the greatest frame number, 65535: 1236 (R27, R171). -/
def lastPacketIndex : Nat := packetIndex 0xFFFF#16

/-- A base offset has the form (k - 44) * 1024 + 1 for a packet index k in 44..1236 (R27). -/
def baseLegal (b : Option (BitVec 32)) : Prop :=
  ∀ x, b = some x → ∃ k, Config.firstPacketIndex ≤ k ∧ k ≤ lastPacketIndex ∧
    x.toNat = (k - Config.firstPacketIndex) * Config.packetLen + Config.baseSkew

/-- The invariants: the three images are canonical (log 8), position is in 0..1023 (R39 (a)),
transparency equals the latch's genlock bit (R39 (e)), the base offset is a packet's (R27), and fifo_b
holds no zero byte (R193). -/
structure Inv (c : Configuration) (s : State) : Prop where
  image : ∀ p, (image p s).wf (powerOnByte c p) = true
  position : s.position < Config.packetLen
  transparency : s.transparency = genlockBit c s.ctrlLatch
  base : baseLegal s.baseOffset
  fifoB : ∀ v ∈ s.fifoB, v ≠ 0x00#8

/-- Performing operations one after another, with the result of each; nothing where one has no next
state. -/
def runOps : List Instr → State → Option (State × List Result)
  | [], s => some (s, [])
  | i :: is, s =>
    match exec i s with
    | .next t => (runOps is t).map fun r => (r.1, t.result :: r.2)
    | _ => none

/-- The bytes a sequence of operations writes to the sound register, in order (R190). -/
def soundBytes : List Instr → List Byte
  | [] => []
  | .mwrSound _ v :: is => v :: soundBytes is
  | _ :: is => soundBytes is

/-- The byte coprocessor A takes from its mailbox when operation i leads from s to t: the result of its
mailbox read, when the FIFO held a byte (R192). -/
def takenByA (i : Instr) (s t : State) : List Byte :=
  match i, s.fifoA, t.result with
  | .ardMbox _, _ :: _, .byte v => [v]
  | _, _, _ => []

/-- The same for coprocessor B (R193). -/
def takenByB (i : Instr) (s t : State) : List Byte :=
  match i, s.fifoB, t.result with
  | .brdMbox _, _ :: _, .byte v => [v]
  | _, _, _ => []

/-- All the bytes taken along a run, in order. -/
def takenAlong (taken : Instr → State → State → List Byte) : List Instr → State → List Byte
  | [], _ => []
  | i :: is, s =>
    match exec i s with
    | .next t => taken i s t ++ takenAlong taken is t
    | _ => []

/-- The byte an audio-mode read returns at offset k of the packet at base b (R175): the table's, or the
default where the index is outside the table. -/
def packetByte (c : Configuration) (b : BitVec 32) (k : Nat) : Byte :=
  if b.toNat + k < c.tableLen then c.table (b.toNat + k) else c.unmappedReadValue

end Machine

end Sys2Proof
end

