-- ==== Sys2Proof/Certificates/Slice0/Obligations.lean ====
section
/-! DEFINITION. The statements for the provers. Each docstring names the rule of spec/ it formalises.
Frames are written as one record: a field that a next state's record does not name is unchanged. -/

open Sys2Proof Sys2Proof.Machine

/-! ### Encoding and decode (30_encoding.md) -/

/-- Every well-formed operation, with every operand at every value, decodes from its own word (R80 to R83,
R86, R88). The packing into words is the spec's own decision D2. -/
def Obligations.DecodeOfEncodeIsTheOperation : Prop :=
  ∀ i : Instr, i.wellFormed = true → decode (encode i) = .ok i

/-- A word that decodes is the word of the operation it decodes to, which is well formed: no bit of a legal
word is dropped (R80 to R86, R91). The packing into words is the spec's own decision D2. -/
def Obligations.EncodeOfDecodeIsTheWord : Prop :=
  ∀ (w : OpWord) (i : Instr), decode w = .ok i → i.wellFormed = true ∧ encode i = w

/-- The decoder of R86 and the first matching row of the opcode table (R89) give every one of the 2^40 words
the same mnemonic, or both none. The address ranges are those of the default map (decisions D4 to D6; log 1).
-/
def Obligations.DecoderAgreesWithTheOpcodeTable : Prop :=
  ∀ w : OpWord, decodedMnemonic w = tableMnemonic w

/-- R89: no two rows of the table match the same word. The spec derives the table from R86. -/
def Obligations.OpcodeTableRowsNeverOverlap : Prop :=
  ∀ (w : OpWord) (r r' : OpRow), r ∈ opTable → r' ∈ opTable →
    rowMatches r w = true → rowMatches r' w = true → r = r'

/-- R91: exactly the listed words are reserved. The fields are written here by division on the word's number,
not by the decoder's accessors. That reserved words exist and are refused is the spec's own decision D2. -/
def Obligations.ReservedWordsAreTheListedOnes : Prop :=
  ∀ w : OpWord,
    let n := w.toNat
    let kind := n / 2 ^ 36
    let agent := n / 2 ^ 34 % 4
    let isWrite := n / 2 ^ 33 % 2 = 1
    let sub := n / 2 ^ 32 % 16
    let arg := n / 2 ^ 8 % 2 ^ 24
    let low := n % 2 ^ 8
    (∃ why, decode w = .error why) ↔
      3 ≤ kind ∨
      (kind = 0 ∧ (agent = 3 ∨ n / 2 ^ 32 % 2 = 1 ∨ (¬ isWrite ∧ low ≠ 0))) ∨
      (kind = 1 ∧ n % 2 ^ 36 ≠ 0) ∨
      (kind = 2 ∧ (7 ≤ sub ∨
        (sub = 0 ∧ (arg ≠ 0 ∨ low ≠ 0)) ∨
        (sub = 1 ∧ (arg ≠ 0 ∨ low ≠ 0)) ∨
        (sub = 3 ∧ arg ≠ 0) ∨
        (sub = 4 ∧ low ≠ 0) ∨
        (sub = 5 ∧ (arg / 16 ≠ 0 ∨ low ≠ 0 ∨
          (arg / 4 % 4, arg % 4) ∉ [(0, 0), (1, 0), (1, 1), (2, 0), (2, 1)])) ∨
        (sub = 6 ∧ (arg / 2 ^ 16 ≠ 0 ∨ low ≠ 0))))

/-- One step performs the oldest presented operation, decoded, on the state without it; a reserved word is
refused; with no operation presented nothing happens (R6, R58, R91). The queue of presented words and the idle
step are the model's own choices (log 5, log 6). -/
def Obligations.StepRunsTheDecodedOperation : Prop :=
  ∀ s : State,
    (s.input = [] → step s = .next { s with result := .nothing, events := [] }) ∧
    ∀ (w : OpWord) (rest : List OpWord), s.input = w :: rest →
      (∀ i, decode w = .ok i → step s = exec i { s with input := rest }) ∧
      (∀ why, decode w = .error why → step s = .refused (.reservedWord why))

/-- R96: the nine example encodings. The packing into words is the spec's own decision D2. -/
def Obligations.ExampleWordsDecode : Prop :=
  decode 0x0200580241#40 = .ok (.mwrSound 0x005802#24 0x41#8) ∧
  decode 0x0000580700#40 = .ok (.mrdLdstatus 0x005807#24) ∧
  decode 0x0001580700#40 = .ok (.mrdLdstatus 0x015807#24) ∧
  decode 0x0400800000#40 = .ok (.ardMbox 0x008000#24) ∧
  decode 0x0A00800001#40 = .ok (.bwrCtrl 0x008000#24 0x01#8) ∧
  decode 0x1000000000#40 = .ok .tick ∧
  decode 0x2600091C00#40 = .ok (.ldframe (BitVec.ofNat 16 2332)) ∧
  decode 0x2200000001#40 = .ok (.dipset 0#24 0x01#8) ∧
  decode 0x2500000400#40 = .ok (.irqack .aMbox)

/-- R51: the address is replaced by its remainder modulo 65536 before decode, so two issued addresses with
the same remainder reach the same byte or register, for every processor, read or write. -/
def Obligations.MirroredAddressesReachTheSamePlace : Prop :=
  (∀ a : BusAddr, (maskAddr a).toNat = a.toNat % 65536) ∧
  ∀ (p : Proc) (write : Bool) (a a' : BusAddr) (v : Byte) (s : State) (rest : List OpWord),
    a.toNat % 65536 = a'.toNat % 65536 →
    step { s with input := busWord p write a v :: rest } =
      step { s with input := busWord p write a' v :: rest }

/-! ### Whole-machine rules -/

/-- R220 and R95: every operation completes in every state; a bus read returns a byte, DIPSET a Boolean, every
other operation nothing; and the operations still presented are untouched. Which operations return what is the
spec's own decision D1 (R95). -/
def Obligations.EveryOperationCompletesWithItsResult : Prop :=
  ∀ (i : Instr) (s : State), ∃ t, exec i s = .next t ∧ t.input = s.input ∧
    (i.isBusRead = true → ∃ v, t.result = .byte v) ∧
    (∀ bank value, i = .dipset bank value → ∃ ok, t.result = .flag ok) ∧
    (i.isBusRead = false → (∀ bank value, i ≠ .dipset bank value) → t.result = .nothing)

/-- R231: an operation reports at most one diagnostic, and none emits both a diagnostic and a line event. The
spec derives R231 from its decode. -/
def Obligations.OneDiagnosticAndNeverWithALine : Prop :=
  ∀ (i : Instr) (s t : State), exec i s = .next t →
    t.events.countP (·.isDiag) ≤ 1 ∧
    ¬ (t.events.any (·.isDiag) = true ∧ t.events.any (·.isIrq) = true)

/-- R21: only a RAM or ROM write by processor p changes p's image. That RESET keeps the images is the spec's
own decision D22. -/
def Obligations.OnlyItsOwnProcessorWritesAnImage : Prop :=
  ∀ (i : Instr) (s t : State), exec i s = .next t →
    ∀ p, image p t ≠ image p s → i.agent = .proc p ∧ i.storesImage = true

/-- The access matrix of R240, agent by agent: what each agent's operations leave unchanged. The matrix is
derived by the spec from its decode. -/
def Obligations.AgentsWriteOnlyWhatTheMatrixAllows : Prop :=
  ∀ (i : Instr) (s t : State), exec i s = .next t →
    (i.agent = .proc .main →
      t.mem1 = s.mem1 ∧ t.mem2 = s.mem2 ∧ t.bSecEn = s.bSecEn ∧ t.dipSw = s.dipSw ∧
      t.serviceSw = s.serviceSw ∧ t.sigloss = s.sigloss ∧ t.ldFrame = s.ldFrame ∧
      (∀ l, lineLevel l s = true → lineLevel l t = true) ∧
      (∃ q, t.fifoA = s.fifoA ++ q) ∧ ∃ q, t.fifoB = s.fifoB ++ q) ∧
    (i.agent = .proc .copA →
      t = { s with mem1 := t.mem1, fifoA := t.fifoA, result := t.result, events := t.events } ∧
      ∃ q, s.fifoA = q ++ t.fifoA) ∧
    (i.agent = .proc .copB →
      t = { s with mem2 := t.mem2, fifoB := t.fifoB, bSecEn := t.bSecEn, result := t.result,
                   events := t.events } ∧
      ∃ q, s.fifoB = q ++ t.fifoB) ∧
    (i.agent = .tickSource →
      t = { s with paletteDirty := t.paletteDirty, overlayDirty := t.overlayDirty,
                   audioReady := t.audioReady, irqMainPeriodic := t.irqMainPeriodic,
                   irqASec := t.irqASec, irqBSec := t.irqBSec, sigloss := t.sigloss,
                   baseOffset := t.baseOffset, position := t.position, prevFrame := t.prevFrame,
                   result := t.result, events := t.events }) ∧
    (i.agent = .peripheral →
      t = { s with ldFrame := t.ldFrame, sigloss := t.sigloss, baseOffset := t.baseOffset,
                   position := t.position, audioReady := t.audioReady, prevFrame := t.prevFrame,
                   prevCmd := t.prevCmd, result := t.result, events := t.events }) ∧
    (i.agent = .host → i ≠ .reset →
      t = { s with dipSw := t.dipSw, serviceSw := t.serviceSw, result := t.result,
                   events := t.events }) ∧
    (i.agent = .collaborator →
      (∀ l, lineLevel l t = true → lineLevel l s = true) ∧
      t = { s with irqMainPeriodic := t.irqMainPeriodic, irqAMbox := t.irqAMbox, irqASec := t.irqASec,
                   irqBMbox := t.irqBMbox, irqBSec := t.irqBSec, result := t.result, events := t.events })

/-- R240, R244: what coprocessor A sees depends only on its own image and its own FIFO; what coprocessor B
sees only on its own image and FIFO. Two states that agree there give the same result, the same events and the
same image and FIFO after, whatever else differs. The matrix is derived by the spec from its decode. -/
def Obligations.CoprocessorsSeeOnlyTheirOwnState : Prop :=
  (∀ (i : Instr) (s s' t t' : State), i.agent = .proc .copA → s.mem1 = s'.mem1 → s.fifoA = s'.fifoA →
    exec i s = .next t → exec i s' = .next t' →
    t.result = t'.result ∧ t.events = t'.events ∧ t.mem1 = t'.mem1 ∧ t.fifoA = t'.fifoA) ∧
  ∀ (i : Instr) (s s' t t' : State), i.agent = .proc .copB → s.mem2 = s'.mem2 → s.fifoB = s'.fifoB →
    exec i s = .next t → exec i s' = .next t' →
    t.result = t'.result ∧ t.events = t'.events ∧ t.mem2 = t'.mem2 ∧ t.fifoB = t'.fifoB

/-- R225 to R228: what may raise and what may lower each line. That only IRQACK and RESET lower a line for
good is the spec's own decision D18. -/
def Obligations.LinesMoveOnlyByTheirOwnSources : Prop :=
  ∀ (i : Instr) (s t : State) (l : Line), exec i s = .next t →
    (lineLevel l s = true → lineLevel l t = false → i = .irqack l ∨ i = .reset) ∧
    (lineLevel l s = false → lineLevel l t = true →
      (l = .mainPeriodic ∧ i = .tick) ∨
      (l = .aMbox ∧ ∃ addr v, i = .mwrSound addr v) ∨
      (l = .bMbox ∧ ∃ addr v, i = .mwrSound addr v ∧ v ≠ 0x00#8) ∨
      (l = .aSec ∧ i = .tick ∧ Config.machine.copATickEn = true) ∨
      (l = .bSec ∧ i = .tick ∧ s.bSecEn = true))

/-- R26: what sets and what clears the audio-ready flag, and nothing else changes it. The reset value is the
spec's own decision D21. -/
def Obligations.AudioReadyChangesOnlyAsListed : Prop :=
  ∀ (i : Instr) (s t : State), exec i s = .next t →
    (s.audioReady = false → t.audioReady = true →
      (i = .tick ∧ s.ldFrame.toNat % 53 = 0 ∧ s.ldFrame ≠ s.prevFrame ∧ 44 ≤ s.ldFrame.toNat / 53) ∨
      (∃ addr, i = .mwrLdcmd addr Config.machine.pauseCmd ∧
        s.prevCmd ≠ some Config.machine.pauseCmd ∧ 44 ≤ s.ldFrame.toNat / 53)) ∧
    (s.audioReady = true → t.audioReady = false →
      (i = .tick ∧ s.ldFrame.toNat % 53 = 0 ∧ s.ldFrame = s.prevFrame) ∨ i = .ldreset ∨ i = .reset)

/-- R39 (b), R27, R179: base_offset changes only at a qualifying transition or a reset, and once loaded only
LDRESET and RESET unload it. That LDRESET and RESET unload it is the spec's own decision D22. -/
def Obligations.BaseOffsetChangesOnlyAsListed : Prop :=
  ∀ (i : Instr) (s t : State), exec i s = .next t →
    (t.baseOffset ≠ s.baseOffset →
      (i = .tick ∧ s.ldFrame.toNat % 53 = 0 ∧ s.ldFrame ≠ s.prevFrame ∧ 44 ≤ s.ldFrame.toNat / 53) ∨
      i = .ldreset ∨ i = .reset) ∧
    (s.baseOffset.isSome = true → t.baseOffset = none → i = .ldreset ∨ i = .reset)

/-! ### Invariants (10_state.md R39) -/

/-- The power-on state meets the invariants. The canonical form is the model's own choice (log 8). -/
def Obligations.InvariantsHoldAtPowerOn : Prop :=
  Inv Config.machine State.reset ∧ ∀ c : Configuration, Inv c (State.powerOn c)

/-- Every step from a state that meets the invariants leads to one that meets them: canonical images, position
in 0..1023, transparency equal to the latch's genlock bit, base_offset a packet's, no zero byte in fifo_b
(R27, R39, R193). The canonical form and the bound on position are the model's own (log 8, log 10). -/
def Obligations.EveryStepKeepsTheInvariants : Prop :=
  ∀ s t : State, Inv Config.machine s → step s = .next t → Inv Config.machine t

/-! ### Router (40_router.md) -/

/-- Reads of RAM and ROM return the image byte at the masked address and change nothing else (R111 to R113,
R116, R117, R126, R127, R133, R134); with each mnemonic's encoding. -/
def Obligations.StoredReadsReturnTheImageByte : Prop :=
  ∀ (addr : BusAddr) (s : State),
    let m := (maskAddr addr).toNat
    let c := Config.machine
    let read (p : Proc) : Host.Outcome State Fault Refusal :=
      .next { s with result := .byte (readByte c p m s), events := [] }
    (c.lowRam.has m = true → decode (busWord .main false addr 0#8) = .ok (.mrdLowram addr)) ∧
    exec (.mrdLowram addr) s = read .main ∧
    (c.sprite.has m = true → decode (busWord .main false addr 0#8) = .ok (.mrdSprite addr)) ∧
    exec (.mrdSprite addr) s = read .main ∧
    (c.tile.has m = true → decode (busWord .main false addr 0#8) = .ok (.mrdTile addr)) ∧
    exec (.mrdTile addr) s = read .main ∧
    (c.palette.has m = true → decode (busWord .main false addr 0#8) = .ok (.mrdPalette addr)) ∧
    exec (.mrdPalette addr) s = read .main ∧
    (c.rom.has m = true → decode (busWord .main false addr 0#8) = .ok (.mrdRom addr)) ∧
    exec (.mrdRom addr) s = read .main ∧
    (c.copRam.has m = true → decode (busWord .copA false addr 0#8) = .ok (.ardRam addr)) ∧
    exec (.ardRam addr) s = read .copA ∧
    (c.copRom.has m = true → decode (busWord .copA false addr 0#8) = .ok (.ardRom addr)) ∧
    exec (.ardRom addr) s = read .copA ∧
    (c.copRam.has m = true → decode (busWord .copB false addr 0#8) = .ok (.brdRam addr)) ∧
    exec (.brdRam addr) s = read .copB ∧
    (c.copRom.has m = true → decode (busWord .copB false addr 0#8) = .ok (.brdRom addr)) ∧
    exec (.brdRom addr) s = read .copB

/-- Plain RAM writes (R118, R119, R129, R137): the byte at the masked address becomes v, every other byte
of the image reads as before, no flag is written, nothing is emitted, and no other field changes. -/
def Obligations.RamWritesStoreOneByte : Prop :=
  ∀ (addr : BusAddr) (v : Byte) (s : State),
    (∀ p, (image p s).wf (powerOnByte Config.machine p) = true) →
    let m := (maskAddr addr).toNat
    let stores (i : Instr) (p : Proc) (region : AddrRange) : Prop :=
      (region.has m = true → decode (busWord p true addr v) = .ok i) ∧
      ∃ t, exec i s = .next t ∧ readByte Config.machine p m t = v ∧
        (∀ a, a ≠ m → readByte Config.machine p a t = readByte Config.machine p a s) ∧
        t = { setImage p (image p t) s with result := .nothing, events := [] }
    stores (.mwrLowram addr v) .main Config.machine.lowRam ∧
    stores (.mwrSprite addr v) .main Config.machine.sprite ∧
    stores (.awrRam addr v) .copA Config.machine.copRam ∧
    stores (.bwrRam addr v) .copB Config.machine.copRam

/-- ROM writes (R122, R130, R138): a diagnostic on every write, and the byte is stored all the same. The
coprocessor clauses are the spec's own decision D26, the code number 3 its decision D24. -/
def Obligations.RomWritesStoreAndAreLogged : Prop :=
  ∀ (addr : BusAddr) (v : Byte) (s : State),
    (∀ p, (image p s).wf (powerOnByte Config.machine p) = true) →
    let m := (maskAddr addr).toNat
    let stores (i : Instr) (p : Proc) (region : AddrRange) : Prop :=
      (region.has m = true → decode (busWord p true addr v) = .ok i) ∧
      ∃ t, exec i s = .next t ∧ readByte Config.machine p m t = v ∧
        (∀ a, a ≠ m → readByte Config.machine p a t = readByte Config.machine p a s) ∧
        t = { setImage p (image p t) s with
                result := .nothing, events := [.diag (.romWrite p (maskAddr addr) v)] }
    stores (.mwrRom addr v) .main Config.machine.rom ∧
    stores (.awrRom addr v) .copA Config.machine.copRom ∧
    stores (.bwrRom addr v) .copB Config.machine.copRom ∧
    diagCode (.romWrite .main (maskAddr addr) v) = 3

/-- Tile and palette writes (R120, R121): the byte is stored; the dirty flag is set exactly when the byte
changes and otherwise keeps its value; nothing else changes and nothing is emitted. That the tile flag is
overlay_dirty is the spec's own decision D20. -/
def Obligations.TileAndPaletteWritesDetectChange : Prop :=
  ∀ (addr : BusAddr) (v : Byte) (s : State),
    (image .main s).wf (powerOnByte Config.machine .main) = true →
    let m := (maskAddr addr).toNat
    let changed : Bool := decide (readByte Config.machine .main m s ≠ v)
    (Config.machine.tile.has m = true → decode (busWord .main true addr v) = .ok (.mwrTile addr v)) ∧
    (Config.machine.palette.has m = true →
      decode (busWord .main true addr v) = .ok (.mwrPalette addr v)) ∧
    (∃ t, exec (.mwrTile addr v) s = .next t ∧ readByte Config.machine .main m t = v ∧
      (∀ a, a ≠ m → readByte Config.machine .main a t = readByte Config.machine .main a s) ∧
      t = { s with mem0 := t.mem0, overlayDirty := s.overlayDirty || changed, result := .nothing,
                   events := [] }) ∧
    ∃ t, exec (.mwrPalette addr v) s = .next t ∧ readByte Config.machine .main m t = v ∧
      (∀ a, a ≠ m → readByte Config.machine .main a t = readByte Config.machine .main a s) ∧
      t = { s with mem0 := t.mem0, paletteDirty := s.paletteDirty || changed, result := .nothing,
                   events := [] }

/-- R39 (c), R120, R121, R204: a tile or palette write of the byte already stored changes no field of the
machine at all, and a control write that keeps the two watched bits changes the latch alone. The watched bit
numbers 2 and 3 are the spec's own decision D7 (log 1). -/
def Obligations.WritesThatChangeNothingHaveNoSideEffect : Prop :=
  (∀ (addr : BusAddr) (s : State), (image .main s).wf (powerOnByte Config.machine .main) = true →
    let v := readByte Config.machine .main (maskAddr addr).toNat s
    exec (.mwrTile addr v) s = .next { s with result := .nothing, events := [] } ∧
    exec (.mwrPalette addr v) s = .next { s with result := .nothing, events := [] }) ∧
  ∀ (addr : BusAddr) (v : Byte) (s : State),
    v.getLsbD 2 = s.ctrlLatch.getLsbD 2 → v.getLsbD 3 = s.ctrlLatch.getLsbD 3 →
    exec (.mwrCtrl addr v) s = .next { s with ctrlLatch := v, result := .nothing, events := [] }

/-- Unmapped and undefined reads (R114, R115, R128, R135, R136), each with the addresses that decode to it:
a window address with no read register, an address outside every region and the window, the address of B's
write-only control register, and any other address of a coprocessor. Each returns the stable default with
one diagnostic that names the processor and the masked address, and changes no state. The code number 1 is
the spec's own decision D24. -/
def Obligations.UnmappedReadsReturnTheStableDefault : Prop :=
  ∀ (addr : BusAddr) (s : State),
    let m := (maskAddr addr).toNat
    let c := Config.machine
    let window : Prop := 0x5800 ≤ m ∧ m ≤ 0x5807
    let inRegion : Bool := c.lowRam.has m || c.sprite.has m || c.tile.has m || c.palette.has m || c.rom.has m
    let copOther : Prop := c.copRam.has m = false ∧ c.copRom.has m = false
    let fallback (p : Proc) : Host.Outcome State Fault Refusal :=
      .next { s with result := .byte c.unmappedReadValue,
                     events := [.diag (.unmappedRead p (maskAddr addr))] }
    (window → m ∉ [c.regDip, c.regService, c.regLdFrame, c.regLdData, c.regLdStatus] →
      decode (busWord .main false addr 0#8) = .ok (.mrdUndef addr)) ∧
    exec (.mrdUndef addr) s = fallback .main ∧
    (¬ window → inRegion = false → decode (busWord .main false addr 0#8) = .ok (.mrdUnmapped addr)) ∧
    exec (.mrdUnmapped addr) s = fallback .main ∧
    (copOther → m ≠ c.copAMbox → decode (busWord .copA false addr 0#8) = .ok (.ardUnmapped addr)) ∧
    exec (.ardUnmapped addr) s = fallback .copA ∧
    (m = c.copBCtrl → decode (busWord .copB false addr 0#8) = .ok (.brdUndef addr)) ∧
    exec (.brdUndef addr) s = fallback .copB ∧
    (copOther → m ≠ c.copBMbox → m ≠ c.copBCtrl →
      decode (busWord .copB false addr 0#8) = .ok (.brdUnmapped addr)) ∧
    exec (.brdUnmapped addr) s = fallback .copB ∧
    diagCode (.unmappedRead .main (maskAddr addr)) = 1

/-- Unmapped and undefined writes (R124, R125, R131, R132, R139, R140), each with the addresses that decode
to it: one diagnostic that names the processor, the masked address and the byte, and no state change. The
code number 2 is the spec's own decision D24. -/
def Obligations.UnmappedWritesAreDiscarded : Prop :=
  ∀ (addr : BusAddr) (v : Byte) (s : State),
    let m := (maskAddr addr).toNat
    let c := Config.machine
    let window : Prop := 0x5800 ≤ m ∧ m ≤ 0x5807
    let inRegion : Bool := c.lowRam.has m || c.sprite.has m || c.tile.has m || c.palette.has m || c.rom.has m
    let copOther : Prop := c.copRam.has m = false ∧ c.copRom.has m = false
    let fallback (p : Proc) : Host.Outcome State Fault Refusal :=
      .next { s with result := .nothing, events := [.diag (.unmappedWrite p (maskAddr addr) v)] }
    (window → m ∉ [c.regSound, c.regCtrl, c.regLdCmd, c.regLdSel] →
      decode (busWord .main true addr v) = .ok (.mwrUndef addr v)) ∧
    exec (.mwrUndef addr v) s = fallback .main ∧
    (¬ window → inRegion = false → decode (busWord .main true addr v) = .ok (.mwrUnmapped addr v)) ∧
    exec (.mwrUnmapped addr v) s = fallback .main ∧
    (m = c.copAMbox → decode (busWord .copA true addr v) = .ok (.awrUndef addr v)) ∧
    exec (.awrUndef addr v) s = fallback .copA ∧
    (copOther → m ≠ c.copAMbox → decode (busWord .copA true addr v) = .ok (.awrUnmapped addr v)) ∧
    exec (.awrUnmapped addr v) s = fallback .copA ∧
    (m = c.copBMbox → decode (busWord .copB true addr v) = .ok (.bwrUndef addr v)) ∧
    exec (.bwrUndef addr v) s = fallback .copB ∧
    (copOther → m ≠ c.copBMbox → m ≠ c.copBCtrl →
      decode (busWord .copB true addr v) = .ok (.bwrUnmapped addr v)) ∧
    exec (.bwrUnmapped addr v) s = fallback .copB ∧
    diagCode (.unmappedWrite .main (maskAddr addr) v) = 2

/-- R65: a read of RAM, ROM, DIP, SERVICE, LDFRAME or LDSTATUS changes nothing, emits nothing and, repeated
with no operation in between, returns the same value; so does a video-mode read of LDDATA. The spec derives
R65. -/
def Obligations.QuietReadsAreRepeatable : Prop :=
  ∀ (i : Instr) (s : State),
    ((∃ a, i ∈ [Instr.mrdLowram a, .mrdSprite a, .mrdTile a, .mrdPalette a, .mrdRom a, .mrdDip a,
        .mrdService a, .mrdLdframe a, .mrdLdstatus a, .ardRam a, .ardRom a, .brdRam a, .brdRom a]) ∨
      (s.decoderSelect = false ∧ ∃ a, i = .mrdLddata a)) →
    ∃ v, exec i s = .next { s with result := .byte v, events := [] } ∧
      exec i { s with result := .byte v, events := [] } = .next { s with result := .byte v, events := [] }

/-! ### Scheduler (41_scheduler.md) -/

/-- R150 to R157: the whole of TICK: the six steps in their order, every field they write, every event in
order; every other field is unchanged. The clearing of overlay_dirty in step 3, the boundary test of step 5
and the conditions and order of step 6 are the spec's own decisions D20, D12, D9 and D19. -/
def Obligations.TickPerformsTheSixSteps : Prop :=
  decode 0x1000000000#40 = .ok .tick ∧
  ∀ s : State,
    let f := s.ldFrame.toNat
    let loads : Bool := decide (f % 53 = 0 ∧ s.ldFrame ≠ s.prevFrame ∧ 44 ≤ f / 53)
    let clears : Bool := decide (f % 53 = 0 ∧ s.ldFrame = s.prevFrame)
    exec .tick s = .next { s with
      paletteDirty := false
      overlayDirty := false
      sigloss := s.sigloss - 1
      irqMainPeriodic := true
      baseOffset := if loads then some (BitVec.ofNat 32 ((f / 53 - 44) * 1024 + 1)) else s.baseOffset
      position := if loads then 0 else s.position
      audioReady := if loads then true else if clears then false else s.audioReady
      prevFrame := s.ldFrame
      irqASec := if Config.machine.copATickEn then true else s.irqASec
      irqBSec := if s.bSecEn then true else s.irqBSec
      result := .nothing
      events :=
        (if s.paletteDirty then [.paletteRecalc] else []) ++
        [.overlayRedraw (s.paletteDirty || s.overlayDirty), .irqLine .mainPeriodic false,
          .irqLine .mainPeriodic true] ++
        (if Config.machine.copATickEn then [.irqLine .aSec false, .irqLine .aSec true] else []) ++
        (if s.bSecEn then [.irqLine .bSec false, .irqLine .bSec true] else []) }

/-- R170, R171: a qualifying transition. That a transition is a frame with f mod 53 = 0 that differs from the
previous tick's is the spec's own decision D12. The loaded base, read as a number, is (index - 44) * 1024 + 1 exactly:
no step overflows 32 bits. -/
def Obligations.QualifyingTickLoadsThePacket : Prop :=
  ∀ s : State, s.ldFrame.toNat % 53 = 0 → s.ldFrame ≠ s.prevFrame → 44 ≤ s.ldFrame.toNat / 53 →
    ∃ t b, exec .tick s = .next t ∧ t.baseOffset = some b ∧
      b.toNat = (s.ldFrame.toNat / 53 - 44) * 1024 + 1 ∧ b.toNat ≤ 1220609 ∧
      t.position = 0 ∧ t.audioReady = true ∧ t.prevFrame = s.ldFrame

/-- R172: a same-frame re-tick clears the flag, whatever the packet index, and keeps the cursor. -/
def Obligations.SameFrameTickClearsTheReadyFlag : Prop :=
  ∀ s : State, s.ldFrame.toNat % 53 = 0 → s.ldFrame = s.prevFrame →
    ∃ t, exec .tick s = .next t ∧ t.audioReady = false ∧ t.baseOffset = s.baseOffset ∧
      t.position = s.position ∧ t.prevFrame = s.prevFrame

/-- R173: off a boundary, or at a new lead-in boundary, the tick changes of the stream state only prev_frame.
The spec derives R173. -/
def Obligations.OtherTicksChangeOnlyPrevFrame : Prop :=
  ∀ s : State,
    (s.ldFrame.toNat % 53 ≠ 0 ∨
      (s.ldFrame.toNat % 53 = 0 ∧ s.ldFrame ≠ s.prevFrame ∧ s.ldFrame.toNat / 53 < 44)) →
    ∃ t, exec .tick s = .next t ∧ t.audioReady = s.audioReady ∧ t.baseOffset = s.baseOffset ∧
      t.position = s.position ∧ t.prevFrame = s.ldFrame

/-- R152, R160: a counter loaded with n holds n - k after k ticks and stops at 0. The operation that loads the
counter is the spec's own decision D17. -/
def Obligations.SignalLossCountsDownToZero : Prop :=
  ∀ (n : BitVec 24) (k : Nat) (s : State),
    ∃ t rs, runOps (.sigloss n :: List.replicate k .tick) s = some (t, rs) ∧ t.sigloss = n.toNat - k

/-- R159, R160, R206, with their encodings: each writes its one latch and nothing else, and emits nothing.
These three operations are the spec's own decisions D31, D17 and D23. -/
def Obligations.InputLatchesAreWrittenAlone : Prop :=
  ∀ s : State,
    (∀ f : Word16, decode (envWord 6#4 (0#8 ++ f) 0#8) = .ok (.ldframe f) ∧
      exec (.ldframe f) s = .next { s with ldFrame := f, result := .nothing, events := [] }) ∧
    (∀ n : BitVec 24, decode (envWord 4#4 n 0#8) = .ok (.sigloss n) ∧
      exec (.sigloss n) s = .next { s with sigloss := n.toNat, result := .nothing, events := [] }) ∧
    ∀ v : Byte, decode (envWord 3#4 0#24 v) = .ok (.svcset v) ∧
      exec (.svcset v) s = .next { s with serviceSw := v, result := .nothing, events := [] }

/-- R161: IRQACK clears its line and announces it, even a line already 0; every other line and every other
field is kept. The operation is the spec's own decision D18. -/
def Obligations.IrqackClearsOneLine : Prop :=
  ∀ (l : Line) (s : State),
    decode (envWord 5#4 (BitVec.ofNat 24 (l.proc.id * 4 + l.number)) 0#8) = .ok (.irqack l) ∧
    ∃ t, exec (.irqack l) s = .next t ∧ lineLevel l t = false ∧
      (∀ l', l' ≠ l → lineLevel l' t = lineLevel l' s) ∧
      t = { s with irqMainPeriodic := t.irqMainPeriodic, irqAMbox := t.irqAMbox, irqASec := t.irqASec,
                   irqBMbox := t.irqBMbox, irqBSec := t.irqBSec, result := .nothing,
                   events := [.irqLine l false] }

/-- R162: coprocessor B's control write sets the enable from its bit and leaves the line's level alone; no
other operation but RESET changes the enable. The address and the bit are the spec's own decisions D6 and D9
(log 1). -/
def Obligations.SecondaryEnableIsWrittenOnlyByB : Prop :=
  (∀ (addr : BusAddr) (v : Byte) (s : State),
    ((maskAddr addr).toNat = Config.machine.copBCtrl →
      decode (busWord .copB true addr v) = .ok (.bwrCtrl addr v)) ∧
    exec (.bwrCtrl addr v) s =
      .next { s with bSecEn := v.getLsbD Config.machine.copBSecEnBit, result := .nothing, events := [] }) ∧
  ∀ (i : Instr) (s t : State), exec i s = .next t → t.bSecEn ≠ s.bSecEn →
    i = .reset ∨ ∃ addr v, i = .bwrCtrl addr v

/-! ### Stream engine (42_stream.md) -/

/-- R174, R175: a read of the shared register. Video mode: digits 3 and 2 and nothing else. Audio mode: the
table byte or the default with a diagnostic, and the cursor advances modulo 1024 in either case. The digits of
video mode and the fallback of R175 are the spec's own decisions D10 and D13. -/
def Obligations.SharedRegisterReadsDigitsOrStream : Prop :=
  ∀ (addr : BusAddr) (s : State),
    ((maskAddr addr).toNat = Config.machine.regLdData →
      decode (busWord .main false addr 0#8) = .ok (.mrdLddata addr)) ∧
    exec (.mrdLddata addr) s = .next
      (if s.decoderSelect = false then
        { s with result := .byte (BitVec.ofNat 8
                    (16 * (s.ldFrame.toNat / 1000 % 10) + s.ldFrame.toNat / 100 % 10)),
                 events := [] }
      else
        match s.baseOffset with
        | none =>
          { s with position := (s.position + 1) % 1024, result := .byte Config.machine.unmappedReadValue,
                   events := [.diag (.streamRange none s.position)] }
        | some b =>
          if b.toNat + s.position < Config.machine.tableLen then
            { s with position := (s.position + 1) % 1024,
                     result := .byte (Config.machine.table (b.toNat + s.position)), events := [] }
          else
            { s with position := (s.position + 1) % 1024, result := .byte Config.machine.unmappedReadValue,
                     events := [.diag (.streamRange (some b) s.position)] })

/-- R181: the cursor law, for every number n of consecutive audio-mode reads from position 0: read k returns
the packet's byte k mod 1024, and after n reads position is n mod 1024 and base_offset, audio_ready and
everything else are unchanged. With n = 1024 the cursor is back at 0, and read 1025 returns the first byte
again. The spec derives the law from R174. -/
def Obligations.CursorCyclesThroughThePacket : Prop :=
  ∀ (addr : BusAddr) (b : BitVec 32) (s : State) (n : Nat),
    s.decoderSelect = true → s.baseOffset = some b → s.position = 0 →
    ∃ t, runOps (List.replicate n (.mrdLddata addr)) s =
        some (t, (List.range n).map fun k => .byte (packetByte Config.machine b (k % 1024))) ∧
      t = { s with position := n % 1024, result := t.result, events := t.events }

/-- R176: the decoder-select write takes one bit of the byte and changes nothing else. The register's address
and the bit are the spec's own decisions D5 and D8 (log 1). -/
def Obligations.DecoderSelectWriteTakesOneBit : Prop :=
  ∀ (addr : BusAddr) (v : Byte) (s : State),
    ((maskAddr addr).toNat = Config.machine.regLdSel →
      decode (busWord .main true addr v) = .ok (.mwrLdsel addr v)) ∧
    exec (.mwrLdsel addr v) s =
      .next { s with decoderSelect := v.getLsbD Config.machine.ldSelBit, result := .nothing, events := [] }

/-- R177: the command register. Every write is forwarded and remembered; only a pause edge rewinds the cursor
and sets the flag; base_offset and everything else are kept. The width of the forwarded command is the spec's
own decision D16; PAUSE_CMD is open (log 2). -/
def Obligations.CommandWriteForwardsAndDetectsThePause : Prop :=
  ∀ (addr : BusAddr) (v : Byte) (s : State),
    let edge : Bool := decide (v = Config.machine.pauseCmd ∧ s.prevCmd ≠ some v ∧ 44 ≤ s.ldFrame.toNat / 53)
    ((maskAddr addr).toNat = Config.machine.regLdCmd →
      decode (busWord .main true addr v) = .ok (.mwrLdcmd addr v)) ∧
    exec (.mwrLdcmd addr v) s = .next { s with
      position := if edge then 0 else s.position
      audioReady := if edge then true else s.audioReady
      prevCmd := some v
      result := .nothing
      events := [.ldCommand (BitVec.ofNat 16 v.toNat)] }

/-- R177, R270: the same command sent twice, each send at its own address. Whatever reads of the shared
register fall between, each at its own address, the second send changes no state and only forwards the command
again; so the break-in-transmission reset fires at most once. That reads between the sends do not matter follows
from R177. -/
def Obligations.RepeatedCommandIsOnlyForwarded : Prop :=
  ∀ (first second : BusAddr) (reads : List BusAddr) (v : Byte) (s : State),
    ∃ u rs, runOps (.mwrLdcmd first v :: reads.map .mrdLddata) s = some (u, rs) ∧
      exec (.mwrLdcmd second v) u =
        .next { u with result := .nothing, events := [.ldCommand (BitVec.ofNat 16 v.toNat)] }

/-- R178: LDRESET resets the five stream fields and nothing else; after it the next boundary frame at or past
the threshold qualifies again. The operation is the spec's own decision D22. -/
def Obligations.LdresetResetsTheStreamAlone : Prop :=
  decode 0x2100000000#40 = .ok .ldreset ∧
  ∀ s : State,
    let t : State := { s with baseOffset := none, position := 0, audioReady := false, prevFrame := 0#16,
                              prevCmd := none, result := .nothing, events := [] }
    exec .ldreset s = .next t ∧
    (s.ldFrame.toNat % 53 = 0 → 44 ≤ s.ldFrame.toNat / 53 →
      ∃ u, exec .tick t = .next u ∧ u.audioReady = true ∧ u.baseOffset.isSome = true)

/-! ### Mailbox (43_mailbox.md) -/

/-- R190: a sound-register write. The order of the two halves is the spec's own decision D18, the unbounded
depth D27 (log 1). -/
def Obligations.SoundWriteFeedsBothMailboxes : Prop :=
  ∀ (addr : BusAddr) (v : Byte) (s : State),
    ((maskAddr addr).toNat = Config.machine.regSound →
      decode (busWord .main true addr v) = .ok (.mwrSound addr v)) ∧
    exec (.mwrSound addr v) s = .next { s with
      fifoA := s.fifoA ++ [v]
      irqAMbox := true
      fifoB := if v = 0x00#8 then s.fifoB else s.fifoB ++ [v]
      irqBMbox := if v = 0x00#8 then s.irqBMbox else true
      result := .nothing
      events := if v = 0x00#8 then [.irqLine .aMbox true]
        else [.irqLine .aMbox true, .irqLine .bMbox true] }

/-- R192, R193, R194: a mailbox read takes exactly one byte from its own FIFO; from an empty one it returns
the default with a diagnostic, leaves it empty and changes nothing else; the lines are not touched. That a
read leaves the line alone is the spec's own decision D18; the empty value is open (log 2). -/
def Obligations.MailboxReadsTakeOneByte : Prop :=
  ∀ (addr : BusAddr) (s : State),
    ((maskAddr addr).toNat = Config.machine.copAMbox →
      decode (busWord .copA false addr 0#8) = .ok (.ardMbox addr)) ∧
    ((maskAddr addr).toNat = Config.machine.copBMbox →
      decode (busWord .copB false addr 0#8) = .ok (.brdMbox addr)) ∧
    exec (.ardMbox addr) s = .next (match s.fifoA with
      | [] => { s with result := .byte Config.machine.mboxEmptyValue, events := [.diag (.mboxEmpty .copA)] }
      | v :: rest => { s with fifoA := rest, result := .byte v, events := [] }) ∧
    exec (.brdMbox addr) s = .next (match s.fifoB with
      | [] => { s with result := .byte Config.machine.mboxEmptyValue, events := [.diag (.mboxEmpty .copB)] }
      | v :: rest => { s with fifoB := rest, result := .byte v, events := [] })

/-- R191: along any run without RESET, whatever the interleaving, the bytes coprocessor A has taken followed
by those still in its FIFO are those it held at the start followed by those the main processor wrote; for B
the zero bytes are left out. Nothing is reordered, duplicated or lost. The unbounded depth is the spec's own
decision D27 (log 1). -/
def Obligations.MailboxesKeepOrderAndLoseNothing : Prop :=
  ∀ (is : List Instr) (s t : State) (rs : List Result), .reset ∉ is → runOps is s = some (t, rs) →
    takenAlong takenByA is s ++ t.fifoA = s.fifoA ++ soundBytes is ∧
    takenAlong takenByB is s ++ t.fifoB = s.fifoB ++ (soundBytes is).filter (· != 0x00#8)

/-- R196: whichever of a write and a read of an empty mailbox is ordered first completes first. The spec
derives it from its total order. -/
def Obligations.MailboxArbitrationFollowsTheOrder : Prop :=
  ∀ (addr addr' : BusAddr) (v : Byte) (s : State), s.fifoA = [] →
    (∃ t, runOps [.ardMbox addr', .mwrSound addr v] s =
      some (t, [.byte Config.machine.mboxEmptyValue, .nothing]) ∧ t.fifoA = [v]) ∧
    ∃ t, runOps [.mwrSound addr v, .ardMbox addr'] s = some (t, [.nothing, .byte v]) ∧ t.fifoA = []

/-- R195, U6: in a configuration with a finite FIFO_DEPTH a write that would exceed it is refused, and one
that fits is performed as in the unbounded machine. The refusal is the spec's own decision D27 (log 13). -/
def Obligations.FiniteFifoOverflowIsRefused : Prop :=
  ∀ (c : Configuration) (d : Nat) (v : Byte) (s : State), c.fifoDepth = some d →
    (d ≤ s.fifoA.length → writeSound c v s = .refused (.fifoFull .copA)) ∧
    (s.fifoA.length < d → v ≠ 0x00#8 → d ≤ s.fifoB.length → writeSound c v s = .refused (.fifoFull .copB)) ∧
    (s.fifoA.length < d → (v = 0x00#8 ∨ s.fifoB.length < d) →
      writeSound c v s = writeSound Config.machine v s)

/-! ### Status and control (44_status_control.md) -/

/-- R200: the combined status byte, bit by bit; the read changes no state and emits nothing. Reading "true
only when" as "exactly when" for bit 5, and bit 7 as 0 otherwise, is the spec's own decision D11. -/
def Obligations.StatusByteBits : Prop :=
  ∀ (addr : BusAddr) (s : State),
    ((maskAddr addr).toNat = Config.machine.regLdStatus →
      decode (busWord .main false addr 0#8) = .ok (.mrdLdstatus addr)) ∧
    ∃ b : Byte, exec (.mrdLdstatus addr) s = .next { s with result := .byte b, events := [] } ∧
      b.getLsbD 7 = decide (s.ldFrame.toNat / 53 < 44 ∨ s.sigloss ≠ 0) ∧
      b.getLsbD 6 = false ∧
      b.getLsbD 5 = decide (s.sigloss = 0 ∧ s.ldFrame.toNat ≠ 0) ∧
      b.getLsbD 4 = true ∧
      b.getLsbD 3 = s.audioReady ∧
      b.toNat % 8 = s.ldFrame.toNat / 10000

/-- R201, R202: the three registers, each read at its own address, hold the five decimal digits of the frame
number, each nibble 0 to 9; read together without a change of frame they give it back. LDSTATUS and LDFRAME do
not depend on the decoder select; LDDATA holds digits in video mode. The split of the digits over three registers
is the spec's own decision D10. -/
def Obligations.FrameDigitsGiveTheFrameBack : Prop :=
  ∀ (status data frame : BusAddr) (s : State),
    ((maskAddr frame).toNat = Config.machine.regLdFrame →
      decode (busWord .main false frame 0#8) = .ok (.mrdLdframe frame)) ∧
    ∃ hi mid lo : Byte,
      exec (.mrdLdstatus status) s = .next { s with result := .byte hi, events := [] } ∧
      (s.decoderSelect = false →
        exec (.mrdLddata data) s = .next { s with result := .byte mid, events := [] }) ∧
      exec (.mrdLdframe frame) s = .next { s with result := .byte lo, events := [] } ∧
      mid.toNat / 16 ≤ 9 ∧ mid.toNat % 16 ≤ 9 ∧ lo.toNat / 16 ≤ 9 ∧ lo.toNat % 16 ≤ 9 ∧
      s.ldFrame.toNat = 10000 * (hi.toNat % 8) + 1000 * (mid.toNat / 16) + 100 * (mid.toNat % 16) +
        10 * (lo.toNat / 16) + lo.toNat % 16

/-- R203, R207: the switch reads. The two registers are the spec's own decision D5. -/
def Obligations.SwitchReadsReturnTheSwitches : Prop :=
  ∀ (addr : BusAddr) (s : State),
    ((maskAddr addr).toNat = Config.machine.regDip →
      decode (busWord .main false addr 0#8) = .ok (.mrdDip addr)) ∧
    exec (.mrdDip addr) s = .next { s with result := .byte s.dipSw, events := [] } ∧
    ((maskAddr addr).toNat = Config.machine.regService →
      decode (busWord .main false addr 0#8) = .ok (.mrdService addr)) ∧
    exec (.mrdService addr) s = .next { s with result := .byte s.serviceSw, events := [] }

/-- R204: the control register: the latch always; a forced redraw on an edge of either watched bit; the
transparency change and its event only on an edge of the genlock bit. Which effect belongs to which bit, and
the bit numbers, are the spec's own decision D7 (log 1). -/
def Obligations.ControlWriteActsOnEdges : Prop :=
  ∀ (addr : BusAddr) (v : Byte) (s : State),
    let ov (x : Byte) := x.getLsbD Config.machine.ctrlBitOverlay
    let gl (x : Byte) := x.getLsbD Config.machine.ctrlBitGenlock
    let ovEdge : Bool := ov s.ctrlLatch != ov v
    let glEdge : Bool := gl s.ctrlLatch != gl v
    ((maskAddr addr).toNat = Config.machine.regCtrl →
      decode (busWord .main true addr v) = .ok (.mwrCtrl addr v)) ∧
    exec (.mwrCtrl addr v) s = .next { s with
      ctrlLatch := v
      overlayDirty := s.overlayDirty || ovEdge || glEdge
      transparency := if glEdge then gl v else s.transparency
      result := .nothing
      events := if glEdge then [.transparency (gl v)] else [] }

/-- R205: DIPSET of bank 0 puts input bit i at logical bit DIP_PERM(i), for each of the eight bits, and
returns ok; any other bank returns fail and changes nothing. The permutation is open but for being a bijection
(decision D23; log 2). -/
def Obligations.DipsetPermutesBankZero : Prop :=
  ∀ (bank : BitVec 24) (value : Byte) (s : State),
    decode (envWord 2#4 bank value) = .ok (.dipset bank value) ∧
    (bank = 0#24 → ∃ t, exec (.dipset bank value) s = .next t ∧
      (∀ i : Fin 8, t.dipSw.getLsbD (Config.machine.dipPerm i).val = value.getLsbD i.val) ∧
      t = { s with dipSw := t.dipSw, result := .flag true, events := [] }) ∧
    (bank ≠ 0#24 → exec (.dipset bank value) s = .next { s with result := .flag false, events := [] })

/-- R205: for any permutation and whatever dip_sw held, the map from the written byte to the stored byte is a
bijection on bytes; 0x00 goes to 0x00, 0xFF to 0xFF, and the number of 1 bits is kept. The spec derives it
from bijectivity. -/
def Obligations.DipPermutationIsABijection : Prop :=
  ∀ (perm : Equiv.Perm (Fin 8)) (old : Byte),
    Function.Bijective (permuteInto perm old) ∧
    permuteInto perm old 0x00#8 = 0x00#8 ∧ permuteInto perm old 0xFF#8 = 0xFF#8 ∧
    ∀ v : Byte, (List.finRange 8).countP (fun i => (permuteInto perm old v).getLsbD i.val) =
      (List.finRange 8).countP (fun i => v.getLsbD i.val)

/-! ### Reset and power-on (70_reset_and_hazards.md) -/

/-- R260, R261: RESET. Every register-bank and stream field takes its reset value; the two dirty flags take
some values, on which this statement says nothing; the images and ld_frame are kept; nothing is emitted. Most
of these values are the spec's own decision D21, what is kept D22 (log 14). -/
def Obligations.ResetRestoresTheRegisterBank : Prop :=
  decode 0x2000000000#40 = .ok .reset ∧
  ∀ s : State, ∃ pd od n, exec .reset s = .next { s with
    dipSw := Config.machine.dipDefault
    serviceSw := Config.machine.serviceDefault
    ctrlLatch := 0x00#8
    transparency := false
    decoderSelect := false
    audioReady := false
    baseOffset := none
    position := 0
    prevFrame := 0#16
    prevCmd := none
    fifoA := []
    fifoB := []
    sigloss := 0
    paletteDirty := pd
    overlayDirty := od
    irqMainPeriodic := false
    irqAMbox := false
    irqASec := false
    irqBMbox := false
    irqBSec := false
    bSecEn := false
    result := .nothing
    events := []
    freeCount := n }

/-- U9: after one tick the two dirty flags no longer depend on the free bits of a reset: both are 0, and the
states reached from any two choices of them agree on everything but that tick's events. The free bits are the
model's form of U9 (log 3). -/
def Obligations.DirtyFlagsAreDeterminedAfterOneTick : Prop :=
  ∀ (s : State) (pd od pd' od' : Bool),
    ∃ t t', exec .tick { s with paletteDirty := pd, overlayDirty := od } = .next t ∧
      exec .tick { s with paletteDirty := pd', overlayDirty := od' } = .next t' ∧
      t.paletteDirty = false ∧ t.overlayDirty = false ∧ t' = { t with events := t'.events }

/-- R262: the power-on state under any configuration: each image reads as INIT_MEM, but for the first 4096
main bytes where a persisted copy exists; ld_frame 0, all five lines 0, b_sec_en 0; and it is a RESET state:
RESET changes nothing in it but the two free bits. The values are the spec's own decisions D21 and D31 (log
14). -/
def Obligations.PowerOnStateIsAsLoaded : Prop :=
  (∀ (c : Configuration) (p : Proc) (a : Nat),
    readByte c p a (State.powerOn c) =
      (match c.persisted with
        | some saved => if p = .main ∧ a < 4096 then saved a else c.initMem p a
        | none => c.initMem p a)) ∧
  (∀ (c : Configuration) (l : Line), (State.powerOn c).ldFrame = 0#16 ∧
    lineLevel l (State.powerOn c) = false ∧ (State.powerOn c).bSecEn = false) ∧
  ∃ pd od n, exec .reset State.reset =
    .next { State.reset with paletteDirty := pd, overlayDirty := od, freeCount := n }

/-- R21, R246, R264: across sessions the battery-backed 4 KiB of main memory is restored byte for byte, and
every other byte of the three images reads as its INIT_MEM byte again. The persisted copy as a configuration
constant is the model's own choice (log 12); of the dirty flags of the next power-on this statement says
nothing (U9; log 3). -/
def Obligations.BatteryBackedBytesSurviveTheSession : Prop :=
  ∀ (c : Configuration) (s : State),
    let c' := nextSession c s
    (∀ a, a < 4096 → readByte c' .main a (State.powerOn c') = readByte c .main a s) ∧
    (∀ a, 4096 ≤ a → readByte c' .main a (State.powerOn c') = c.initMem .main a) ∧
    (∀ a, readByte c' .copA a (State.powerOn c') = c.initMem .copA a) ∧
    (∀ a, readByte c' .copB a (State.powerOn c') = c.initMem .copB a) ∧
    batteryBytes c' (State.powerOn c') = batteryBytes c s

/-! ### Other bus widths (00_scope.md R9) -/

/-- R9, R51: under any configuration, an address issued on a bus of BUS_ADDR_W bits is masked to its remainder
modulo 65536, before and after the operation word carries it; two issued addresses with the same remainder reach
the same byte or register; and every masked address can be issued on a bus of 16 bits or more. That any such
width behaves alike is the spec's own decision D3; how a word carries an address of another width than 24 is the
model's choice (log 1). -/
def Obligations.EveryBusWidthReachesTheSamePlaces : Prop :=
  ∀ c : Configuration,
    (∀ a : BitVec c.busAddrW, (maskAddr a).toNat = a.toNat % 65536 ∧ maskAddr (carryAddr c a) = maskAddr a) ∧
    (∀ (p : Proc) (write : Bool) (a a' : BitVec c.busAddrW) (v : Byte) (s : State) (rest : List OpWord),
      a.toNat % 65536 = a'.toNat % 65536 →
      step { s with input := issueWord c p write a v :: rest } =
        step { s with input := issueWord c p write a' v :: rest }) ∧
    (16 ≤ c.busAddrW → ∀ m : Word16, ∃ a : BitVec c.busAddrW, maskAddr (carryAddr c a) = m)
end

