-- ==== Sys2Proof/Laws/Encoding.lean ====
section
/-! SUPPORT. The fields of the words the encoder writes: each accessor of the decoder gives back what the
format put there. -/

namespace Sys2Proof

/-- The ids of the processors are the numbers below NPROC (R7, R8). -/
theorem exists_proc_id_iff (n : Nat) : (∃ p : Proc, p.id = n) ↔ n < Config.nproc := by
  constructor
  · rintro ⟨p, rfl⟩
    cases p <;> decide
  · intro h
    match n, h with
    | 0, _ => exact ⟨.main, rfl⟩
    | 1, _ => exact ⟨.copA, rfl⟩
    | 2, _ => exact ⟨.copB, rfl⟩

/-! ### Bus words (R81) -/

/-- Bits 0 to 7 of a bus word. -/
theorem busWord_bit_data (p : Proc) (wr : Bool) (a : BusAddr) (v : Byte) {i : Nat} (h : i < 8) :
    (busWord p wr a v).getLsbD i = v.getLsbD i := by
  simp only [busWord, BitVec.getLsbD_append, h, if_true]

/-- Bits 8 to 31 of a bus word. -/
theorem busWord_bit_addr (p : Proc) (wr : Bool) (a : BusAddr) (v : Byte) {i : Nat} (h1 : 8 ≤ i) (h2 : i < 32) :
    (busWord p wr a v).getLsbD i = a.getLsbD (i - 8) := by
  have h3 : ¬ i < 8 := by omega
  have h4 : i - 8 < 24 := by omega
  simp only [busWord, BitVec.getLsbD_append, h3, h4, if_false, if_true]

/-- Bits 32 and up of a bus word do not depend on its address and byte. -/
theorem busWord_bit_head (p : Proc) (wr : Bool) (a : BusAddr) (v : Byte) (a' : BusAddr) (v' : Byte) {i : Nat}
    (h : 32 ≤ i) :
    (busWord p wr a v).getLsbD i = (busWord p wr a' v').getLsbD i := by
  have h3 : ¬ i < 8 := by omega
  have h4 : ¬ i - 8 < 24 := by omega
  simp only [busWord, BitVec.getLsbD_append, h3, h4, if_false]

@[simp] theorem fieldData_busWord (p : Proc) (wr : Bool) (a : BusAddr) (v : Byte) :
    fieldData (busWord p wr a v) = v := by
  apply BitVec.eq_of_getLsbD_eq
  intro i hi
  simp only [fieldData, BitVec.getLsbD_extractLsb', hi, decide_true, Bool.true_and, Nat.zero_add]
  exact busWord_bit_data p wr a v hi

@[simp] theorem fieldAddr_busWord (p : Proc) (wr : Bool) (a : BusAddr) (v : Byte) :
    fieldAddr (busWord p wr a v) = a := by
  apply BitVec.eq_of_getLsbD_eq
  intro i hi
  simp only [fieldAddr, BitVec.getLsbD_extractLsb', hi, decide_true, Bool.true_and]
  rw [busWord_bit_addr p wr a v (by omega) (by omega), Nat.add_sub_cancel_left]

@[simp] theorem fieldZero_busWord (p : Proc) (wr : Bool) (a : BusAddr) (v : Byte) :
    fieldZero (busWord p wr a v) = false := by
  rw [fieldZero, busWord_bit_head p wr a v 0#24 0#8 (by omega)]
  revert wr; cases p <;> decide

@[simp] theorem fieldRw_busWord (p : Proc) (wr : Bool) (a : BusAddr) (v : Byte) :
    fieldRw (busWord p wr a v) = wr := by
  rw [fieldRw, busWord_bit_head p wr a v 0#24 0#8 (by omega)]
  revert wr; cases p <;> decide

@[simp] theorem fieldAgent_busWord (p : Proc) (wr : Bool) (a : BusAddr) (v : Byte) :
    fieldAgent (busWord p wr a v) = p.id := by
  have h : (busWord p wr a v).extractLsb' 34 2 = (busWord p wr 0#24 0#8).extractLsb' 34 2 := by
    apply BitVec.eq_of_getLsbD_eq
    intro i hi
    simp only [BitVec.getLsbD_extractLsb', hi, decide_true, Bool.true_and]
    exact busWord_bit_head p wr a v 0#24 0#8 (by omega)
  rw [fieldAgent, h]
  clear h
  revert wr; cases p <;> decide

@[simp] theorem fieldKind_busWord (p : Proc) (wr : Bool) (a : BusAddr) (v : Byte) :
    fieldKind (busWord p wr a v) = 0 := by
  have h : (busWord p wr a v).extractLsb' 36 4 = (busWord p wr 0#24 0#8).extractLsb' 36 4 := by
    apply BitVec.eq_of_getLsbD_eq
    intro i hi
    simp only [BitVec.getLsbD_extractLsb', hi, decide_true, Bool.true_and]
    exact busWord_bit_head p wr a v 0#24 0#8 (by omega)
  rw [fieldKind, h]
  clear h
  revert wr; cases p <;> decide

/-- Masking keeps the low 16 bits, whatever the width (R51). -/
theorem maskAddr_eq_setWidth {w : Nat} (a : BitVec w) : maskAddr a = a.setWidth 16 := by
  apply BitVec.eq_of_toNat_eq
  have h : a.toNat &&& Config.addrMask = a.toNat % 2 ^ 16 := Nat.and_two_pow_sub_one_eq_mod a.toNat 16
  rw [maskAddr, h, BitVec.toNat_ofNat, Nat.mod_mod, BitVec.toNat_setWidth]

/-- Masking is the remainder modulo 65536 (R51). -/
theorem maskAddr_toNat {w : Nat} (a : BitVec w) : (maskAddr a).toNat = a.toNat % 65536 := by
  rw [maskAddr_eq_setWidth, BitVec.toNat_setWidth]

/-- The word carries what masking keeps: an address of any BUS_ADDR_W masks to the same place after it (D3). -/
@[simp] theorem maskAddr_carryAddr (c : Configuration) (a : BitVec c.busAddrW) :
    maskAddr (carryAddr c a) = maskAddr a := by
  apply BitVec.eq_of_toNat_eq
  rw [maskAddr_toNat, maskAddr_toNat, carryAddr, BitVec.toNat_setWidth]
  omega

/-- The masked address, read straight from the word, is that of the address the word carries (R84). -/
@[simp] theorem maskedField_busWord (p : Proc) (wr : Bool) (a : BusAddr) (v : Byte) :
    (busWord p wr a v).extractLsb' 8 16 = maskAddr a := by
  apply BitVec.eq_of_getLsbD_eq
  intro i hi
  simp only [maskAddr_eq_setWidth, BitVec.getLsbD_extractLsb', BitVec.getLsbD_setWidth, hi, decide_true, Bool.true_and]
  rw [busWord_bit_addr p wr a v (by omega) (by omega), Nat.add_sub_cancel_left]

/-- The header bits and the data byte of a bus word: what a row with a read mask compares (R89). -/
theorem busWord_and_readMask (p : Proc) (wr : Bool) (a : BusAddr) (v : Byte) :
    busWord p wr a v &&& 0xFF000000FF#40 = busWord p wr 0#24 v := by
  apply BitVec.eq_of_getLsbD_eq
  intro i hi
  have hm : (0xFF000000FF#40).getLsbD i = (decide (i < 8) || decide (32 ≤ i)) := by
    revert i; decide
  rw [BitVec.getLsbD_and, hm]
  by_cases h8 : i < 8
  · rw [busWord_bit_data p wr a v h8, busWord_bit_data p wr 0#24 v h8]; simp [h8]
  · by_cases h32 : 32 ≤ i
    · rw [busWord_bit_head p wr a v 0#24 v h32]; simp [h32]
    · rw [busWord_bit_addr p wr 0#24 v (by omega) (by omega)]; simp [h8, h32]

/-- The header bits alone: what a row with a write mask compares (R89). -/
theorem busWord_and_writeMask (p : Proc) (wr : Bool) (a : BusAddr) (v : Byte) :
    busWord p wr a v &&& 0xFF00000000#40 = busWord p wr 0#24 0#8 := by
  apply BitVec.eq_of_getLsbD_eq
  intro i hi
  have hm : (0xFF00000000#40).getLsbD i = decide (32 ≤ i) := by
    revert i; decide
  rw [BitVec.getLsbD_and, hm]
  by_cases h32 : 32 ≤ i
  · rw [busWord_bit_head p wr a v 0#24 0#8 h32]; simp [h32]
  · by_cases h8 : i < 8
    · rw [busWord_bit_data p wr 0#24 0#8 h8]; simp [h32]
    · rw [busWord_bit_addr p wr 0#24 0#8 (by omega) (by omega)]; simp [h32]

/-! ### Environment words (R83) -/

/-- Bits 0 to 7 of an environment word. -/
theorem envWord_bit_val (sub : BitVec 4) (arg : BitVec 24) (val : Byte) {i : Nat} (h : i < 8) :
    (envWord sub arg val).getLsbD i = val.getLsbD i := by
  simp only [envWord, BitVec.getLsbD_append, h, if_true]

/-- Bits 8 to 31 of an environment word. -/
theorem envWord_bit_arg (sub : BitVec 4) (arg : BitVec 24) (val : Byte) {i : Nat} (h1 : 8 ≤ i) (h2 : i < 32) :
    (envWord sub arg val).getLsbD i = arg.getLsbD (i - 8) := by
  have h3 : ¬ i < 8 := by omega
  have h4 : i - 8 < 24 := by omega
  simp only [envWord, BitVec.getLsbD_append, h3, h4, if_false, if_true]

/-- Bits 32 and up of an environment word do not depend on its operands. -/
theorem envWord_bit_head (sub : BitVec 4) (arg : BitVec 24) (val : Byte) (arg' : BitVec 24) (val' : Byte) {i : Nat}
    (h : 32 ≤ i) : (envWord sub arg val).getLsbD i = (envWord sub arg' val').getLsbD i := by
  have h3 : ¬ i < 8 := by omega
  have h4 : ¬ i - 8 < 24 := by omega
  simp only [envWord, BitVec.getLsbD_append, h3, h4, if_false]

@[simp] theorem fieldData_envWord (sub : BitVec 4) (arg : BitVec 24) (val : Byte) :
    fieldData (envWord sub arg val) = val := by
  apply BitVec.eq_of_getLsbD_eq
  intro i hi
  simp only [fieldData, BitVec.getLsbD_extractLsb', hi, decide_true, Bool.true_and, Nat.zero_add]
  exact envWord_bit_val sub arg val hi

@[simp] theorem fieldAddr_envWord (sub : BitVec 4) (arg : BitVec 24) (val : Byte) :
    fieldAddr (envWord sub arg val) = arg := by
  apply BitVec.eq_of_getLsbD_eq
  intro i hi
  simp only [fieldAddr, BitVec.getLsbD_extractLsb', hi, decide_true, Bool.true_and]
  rw [envWord_bit_arg sub arg val (by omega) (by omega), Nat.add_sub_cancel_left]

@[simp] theorem fieldSub_envWord (sub : BitVec 4) (arg : BitVec 24) (val : Byte) :
    fieldSub (envWord sub arg val) = sub.toNat := by
  have h : (envWord sub arg val).extractLsb' 32 4 = (envWord sub 0#24 0#8).extractLsb' 32 4 := by
    apply BitVec.eq_of_getLsbD_eq
    intro i hi
    simp only [BitVec.getLsbD_extractLsb', hi, decide_true, Bool.true_and]
    exact envWord_bit_head sub arg val 0#24 0#8 (by omega)
  rw [fieldSub, h]
  clear h
  revert sub; decide

@[simp] theorem fieldKind_envWord (sub : BitVec 4) (arg : BitVec 24) (val : Byte) :
    fieldKind (envWord sub arg val) = 2 := by
  have h : (envWord sub arg val).extractLsb' 36 4 = (envWord sub 0#24 0#8).extractLsb' 36 4 := by
    apply BitVec.eq_of_getLsbD_eq
    intro i hi
    simp only [BitVec.getLsbD_extractLsb', hi, decide_true, Bool.true_and]
    exact envWord_bit_head sub arg val 0#24 0#8 (by omega)
  rw [fieldKind, h]
  clear h
  revert sub; decide

/-- The header and the arg of an environment word, when its val is masked away (R89). -/
theorem envWord_and_argMask (sub : BitVec 4) (arg : BitVec 24) (val : Byte) :
    envWord sub arg val &&& 0xFFFFFFFF00#40 = envWord sub arg 0#8 := by
  apply BitVec.eq_of_getLsbD_eq
  intro i hi
  have hm : (0xFFFFFFFF00#40).getLsbD i = decide (8 ≤ i) := by
    revert i; decide
  rw [BitVec.getLsbD_and, hm]
  by_cases h8 : i < 8
  · have h8' : ¬ 8 ≤ i := by omega
    rw [envWord_bit_val sub arg 0#8 h8]; simp [h8']
  · have h8' : 8 ≤ i := by omega
    by_cases h32 : 32 ≤ i
    · rw [envWord_bit_head sub arg val arg 0#8 h32]; simp [h8']
    · rw [envWord_bit_arg sub arg val h8' (by omega), envWord_bit_arg sub arg 0#8 h8' (by omega)]
      simp [h8']

/-- The header and the val of an environment word, when its arg is masked away (R89). -/
theorem envWord_and_valMask (sub : BitVec 4) (arg : BitVec 24) (val : Byte) :
    envWord sub arg val &&& 0xFF000000FF#40 = envWord sub 0#24 val := by
  apply BitVec.eq_of_getLsbD_eq
  intro i hi
  have hm : (0xFF000000FF#40).getLsbD i = (decide (i < 8) || decide (32 ≤ i)) := by
    revert i; decide
  rw [BitVec.getLsbD_and, hm]
  by_cases h8 : i < 8
  · rw [envWord_bit_val sub arg val h8, envWord_bit_val sub 0#24 val h8]; simp [h8]
  · by_cases h32 : 32 ≤ i
    · rw [envWord_bit_head sub arg val 0#24 val h32]; simp [h32]
    · rw [envWord_bit_arg sub 0#24 val (by omega) (by omega)]; simp [h8, h32]

/-- The header of an environment word alone (R89). -/
theorem envWord_and_headMask (sub : BitVec 4) (arg : BitVec 24) (val : Byte) :
    envWord sub arg val &&& 0xFF00000000#40 = envWord sub 0#24 0#8 := by
  apply BitVec.eq_of_getLsbD_eq
  intro i hi
  have hm : (0xFF00000000#40).getLsbD i = decide (32 ≤ i) := by
    revert i; decide
  rw [BitVec.getLsbD_and, hm]
  by_cases h32 : 32 ≤ i
  · rw [envWord_bit_head sub arg val 0#24 0#8 h32]; simp [h32]
  · by_cases h8 : i < 8
    · rw [envWord_bit_val sub 0#24 0#8 h8]; simp [h32]
    · rw [envWord_bit_arg sub 0#24 0#8 (by omega) (by omega)]; simp [h32]

/-- An LDFRAME word under its row's mask: the frame is masked away (R89). -/
theorem frameWord_and_mask (f : Word16) :
    envWord 6#4 (0#8 ++ f) 0#8 &&& 0xFFFF0000FF#40 = envWord 6#4 0#24 0#8 := by
  apply BitVec.eq_of_getLsbD_eq
  intro i hi
  have hm : (0xFFFF0000FF#40).getLsbD i = (decide (i < 8) || decide (24 ≤ i)) := by
    revert i; decide
  rw [BitVec.getLsbD_and, hm]
  by_cases h8 : i < 8
  · rw [envWord_bit_val _ _ _ h8, envWord_bit_val _ _ _ h8]; simp
  · by_cases h32 : 32 ≤ i
    · have h24 : 24 ≤ i := by omega
      rw [envWord_bit_head 6#4 (0#8 ++ f) 0#8 0#24 0#8 h32]; simp [h24]
    · rw [envWord_bit_arg _ _ _ (by omega) (by omega), envWord_bit_arg _ _ _ (by omega) (by omega)]
      by_cases h24 : 24 ≤ i
      · have h16 : ¬ i - 8 < 16 := by omega
        simp only [BitVec.getLsbD_append, h16, if_false, BitVec.getLsbD_zero, Bool.false_and]
      · simp [h8, h24]

end Sys2Proof
end

