-- ==== Sys2Proof/Laws/Decode.lean ====
section
/-! SUPPORT. The decoder on the words the encoder writes: a bus word reaches the address decode of its
processor and direction, an IRQACK word its line, and the machine's map as plain numbers. -/

namespace Sys2Proof

/-- A masked address lies in a range. -/
theorem AddrRange.has_iff (r : AddrRange) (m : Nat) : r.has m = true ↔ r.lo ≤ m ∧ m ≤ r.hi := by
  simp [AddrRange.has]

/-- The machine's regions (R9). -/
theorem machine_regions :
    Config.machine.lowRam = ⟨0x0000, 0x0FFF⟩ ∧ Config.machine.sprite = ⟨0x3000, 0x37FF⟩ ∧
    Config.machine.tile = ⟨0x3800, 0x4FFF⟩ ∧ Config.machine.palette = ⟨0x5000, 0x501F⟩ ∧
    Config.machine.rom = ⟨0x6000, 0xFFFF⟩ ∧ Config.machine.copRam = ⟨0x0000, 0x03FF⟩ ∧
    Config.machine.copRom = ⟨0xC000, 0xFFFF⟩ := ⟨rfl, rfl, rfl, rfl, rfl, rfl, rfl⟩

/-- The machine's register addresses (R9). -/
theorem machine_registers :
    Config.machine.regDip = 0x5800 ∧ Config.machine.regService = 0x5801 ∧
    Config.machine.regSound = 0x5802 ∧ Config.machine.regCtrl = 0x5803 ∧
    Config.machine.regLdFrame = 0x5805 ∧ Config.machine.regLdCmd = 0x5805 ∧
    Config.machine.regLdData = 0x5806 ∧ Config.machine.regLdSel = 0x5806 ∧
    Config.machine.regLdStatus = 0x5807 ∧ Config.machine.copAMbox = 0x8000 ∧
    Config.machine.copBMbox = 0xA000 ∧ Config.machine.copBCtrl = 0x8000 :=
  ⟨rfl, rfl, rfl, rfl, rfl, rfl, rfl, rfl, rfl, rfl, rfl, rfl⟩

/-- The address decode of R86, for one processor and direction. -/
def decodeAt (c : Configuration) (p : Proc) (write : Bool) (a : BusAddr) (v : Byte) : Instr :=
  match p, write with
  | .main, true => decodeMainWrite c a v
  | .main, false => decodeMainRead c a
  | .copA, true => decodeAWrite c a v
  | .copA, false => decodeARead c a
  | .copB, true => decodeBWrite c a v
  | .copB, false => decodeBRead c a

/-- A bus word, a read with its data field zero, is never reserved. -/
theorem decodeWith_busWord (c : Configuration) (p : Proc) (write : Bool) (a : BusAddr) (v : Byte)
    (h : write = false → v = 0#8) :
    decodeWith c (busWord p write a v) = .ok (decodeAt c p write a v) := by
  cases write
  · have hv := h rfl
    subst hv
    cases p <;> simp [decodeWith, decodeBus, decodeAt, Proc.id]
  · cases p <;> simp [decodeWith, decodeBus, decodeAt, Proc.id]

/-- The line field of an IRQACK word gives its line back (R83). -/
theorem lineOf_lineArg (l : Line) :
    lineOf ((lineArg l).extractLsb' 2 2).toNat ((lineArg l).extractLsb' 0 2).toNat = some l := by
  cases l <;> decide

/-- The frame field of an LDFRAME word gives its frame back, and its high bits are zero (R83). -/
theorem frameArg_fields (f : Word16) :
    (0#8 ++ f).extractLsb' 16 8 = 0#8 ∧ (0#8 ++ f : BitVec 24).setWidth 16 = f := by
  constructor
  · apply BitVec.eq_of_getLsbD_eq
    intro i hi
    have h16 : ¬ 16 + i < 16 := by omega
    simp only [BitVec.getLsbD_extractLsb', BitVec.getLsbD_append, h16, if_false, BitVec.getLsbD_zero,
      Bool.and_false]
  · apply BitVec.eq_of_getLsbD_eq
    intro i hi
    simp only [BitVec.getLsbD_setWidth, BitVec.getLsbD_append, hi, if_true, decide_true, Bool.true_and]

end Sys2Proof
end

