-- ==== Sys2Proof/Laws/State.lean ====
section
/-! SUPPORT. One lemma per field per update of the state, so that no later proof unfolds a record
update. -/

namespace Sys2Proof.Machine

/-! ### startOp -/

@[simp] theorem startOp_mem0 (s : State) : (startOp s).mem0 = s.mem0 := rfl
@[simp] theorem startOp_mem1 (s : State) : (startOp s).mem1 = s.mem1 := rfl
@[simp] theorem startOp_mem2 (s : State) : (startOp s).mem2 = s.mem2 := rfl
@[simp] theorem startOp_dipSw (s : State) : (startOp s).dipSw = s.dipSw := rfl
@[simp] theorem startOp_serviceSw (s : State) : (startOp s).serviceSw = s.serviceSw := rfl
@[simp] theorem startOp_ctrlLatch (s : State) : (startOp s).ctrlLatch = s.ctrlLatch := rfl
@[simp] theorem startOp_decoderSelect (s : State) : (startOp s).decoderSelect = s.decoderSelect := rfl
@[simp] theorem startOp_audioReady (s : State) : (startOp s).audioReady = s.audioReady := rfl
@[simp] theorem startOp_baseOffset (s : State) : (startOp s).baseOffset = s.baseOffset := rfl
@[simp] theorem startOp_position (s : State) : (startOp s).position = s.position := rfl
@[simp] theorem startOp_prevFrame (s : State) : (startOp s).prevFrame = s.prevFrame := rfl
@[simp] theorem startOp_prevCmd (s : State) : (startOp s).prevCmd = s.prevCmd := rfl
@[simp] theorem startOp_fifoA (s : State) : (startOp s).fifoA = s.fifoA := rfl
@[simp] theorem startOp_fifoB (s : State) : (startOp s).fifoB = s.fifoB := rfl
@[simp] theorem startOp_sigloss (s : State) : (startOp s).sigloss = s.sigloss := rfl
@[simp] theorem startOp_paletteDirty (s : State) : (startOp s).paletteDirty = s.paletteDirty := rfl
@[simp] theorem startOp_overlayDirty (s : State) : (startOp s).overlayDirty = s.overlayDirty := rfl
@[simp] theorem startOp_transparency (s : State) : (startOp s).transparency = s.transparency := rfl
@[simp] theorem startOp_irqMainPeriodic (s : State) :
    (startOp s).irqMainPeriodic = s.irqMainPeriodic := rfl
@[simp] theorem startOp_irqAMbox (s : State) : (startOp s).irqAMbox = s.irqAMbox := rfl
@[simp] theorem startOp_irqASec (s : State) : (startOp s).irqASec = s.irqASec := rfl
@[simp] theorem startOp_irqBMbox (s : State) : (startOp s).irqBMbox = s.irqBMbox := rfl
@[simp] theorem startOp_irqBSec (s : State) : (startOp s).irqBSec = s.irqBSec := rfl
@[simp] theorem startOp_bSecEn (s : State) : (startOp s).bSecEn = s.bSecEn := rfl
@[simp] theorem startOp_ldFrame (s : State) : (startOp s).ldFrame = s.ldFrame := rfl
@[simp] theorem startOp_result (s : State) : (startOp s).result = .nothing := rfl
@[simp] theorem startOp_events (s : State) : (startOp s).events = [] := rfl
@[simp] theorem startOp_input (s : State) : (startOp s).input = s.input := rfl
@[simp] theorem startOp_freeCount (s : State) : (startOp s).freeCount = s.freeCount := rfl

/-! ### emit -/

@[simp] theorem emit_mem0 (e : Event) (s : State) : (emit e s).mem0 = s.mem0 := rfl
@[simp] theorem emit_mem1 (e : Event) (s : State) : (emit e s).mem1 = s.mem1 := rfl
@[simp] theorem emit_mem2 (e : Event) (s : State) : (emit e s).mem2 = s.mem2 := rfl
@[simp] theorem emit_dipSw (e : Event) (s : State) : (emit e s).dipSw = s.dipSw := rfl
@[simp] theorem emit_serviceSw (e : Event) (s : State) : (emit e s).serviceSw = s.serviceSw := rfl
@[simp] theorem emit_ctrlLatch (e : Event) (s : State) : (emit e s).ctrlLatch = s.ctrlLatch := rfl
@[simp] theorem emit_decoderSelect (e : Event) (s : State) :
    (emit e s).decoderSelect = s.decoderSelect := rfl
@[simp] theorem emit_audioReady (e : Event) (s : State) : (emit e s).audioReady = s.audioReady := rfl
@[simp] theorem emit_baseOffset (e : Event) (s : State) : (emit e s).baseOffset = s.baseOffset := rfl
@[simp] theorem emit_position (e : Event) (s : State) : (emit e s).position = s.position := rfl
@[simp] theorem emit_prevFrame (e : Event) (s : State) : (emit e s).prevFrame = s.prevFrame := rfl
@[simp] theorem emit_prevCmd (e : Event) (s : State) : (emit e s).prevCmd = s.prevCmd := rfl
@[simp] theorem emit_fifoA (e : Event) (s : State) : (emit e s).fifoA = s.fifoA := rfl
@[simp] theorem emit_fifoB (e : Event) (s : State) : (emit e s).fifoB = s.fifoB := rfl
@[simp] theorem emit_sigloss (e : Event) (s : State) : (emit e s).sigloss = s.sigloss := rfl
@[simp] theorem emit_paletteDirty (e : Event) (s : State) :
    (emit e s).paletteDirty = s.paletteDirty := rfl
@[simp] theorem emit_overlayDirty (e : Event) (s : State) :
    (emit e s).overlayDirty = s.overlayDirty := rfl
@[simp] theorem emit_transparency (e : Event) (s : State) :
    (emit e s).transparency = s.transparency := rfl
@[simp] theorem emit_irqMainPeriodic (e : Event) (s : State) :
    (emit e s).irqMainPeriodic = s.irqMainPeriodic := rfl
@[simp] theorem emit_irqAMbox (e : Event) (s : State) : (emit e s).irqAMbox = s.irqAMbox := rfl
@[simp] theorem emit_irqASec (e : Event) (s : State) : (emit e s).irqASec = s.irqASec := rfl
@[simp] theorem emit_irqBMbox (e : Event) (s : State) : (emit e s).irqBMbox = s.irqBMbox := rfl
@[simp] theorem emit_irqBSec (e : Event) (s : State) : (emit e s).irqBSec = s.irqBSec := rfl
@[simp] theorem emit_bSecEn (e : Event) (s : State) : (emit e s).bSecEn = s.bSecEn := rfl
@[simp] theorem emit_ldFrame (e : Event) (s : State) : (emit e s).ldFrame = s.ldFrame := rfl
@[simp] theorem emit_result (e : Event) (s : State) : (emit e s).result = s.result := rfl
@[simp] theorem emit_events (e : Event) (s : State) : (emit e s).events = s.events ++ [e] := rfl
@[simp] theorem emit_input (e : Event) (s : State) : (emit e s).input = s.input := rfl
@[simp] theorem emit_freeCount (e : Event) (s : State) : (emit e s).freeCount = s.freeCount := rfl

/-! ### returnByte -/

@[simp] theorem returnByte_mem0 (v : Byte) (s : State) : (returnByte v s).mem0 = s.mem0 := rfl
@[simp] theorem returnByte_mem1 (v : Byte) (s : State) : (returnByte v s).mem1 = s.mem1 := rfl
@[simp] theorem returnByte_mem2 (v : Byte) (s : State) : (returnByte v s).mem2 = s.mem2 := rfl
@[simp] theorem returnByte_dipSw (v : Byte) (s : State) : (returnByte v s).dipSw = s.dipSw := rfl
@[simp] theorem returnByte_serviceSw (v : Byte) (s : State) :
    (returnByte v s).serviceSw = s.serviceSw := rfl
@[simp] theorem returnByte_ctrlLatch (v : Byte) (s : State) :
    (returnByte v s).ctrlLatch = s.ctrlLatch := rfl
@[simp] theorem returnByte_decoderSelect (v : Byte) (s : State) :
    (returnByte v s).decoderSelect = s.decoderSelect := rfl
@[simp] theorem returnByte_audioReady (v : Byte) (s : State) :
    (returnByte v s).audioReady = s.audioReady := rfl
@[simp] theorem returnByte_baseOffset (v : Byte) (s : State) :
    (returnByte v s).baseOffset = s.baseOffset := rfl
@[simp] theorem returnByte_position (v : Byte) (s : State) :
    (returnByte v s).position = s.position := rfl
@[simp] theorem returnByte_prevFrame (v : Byte) (s : State) :
    (returnByte v s).prevFrame = s.prevFrame := rfl
@[simp] theorem returnByte_prevCmd (v : Byte) (s : State) : (returnByte v s).prevCmd = s.prevCmd := rfl
@[simp] theorem returnByte_fifoA (v : Byte) (s : State) : (returnByte v s).fifoA = s.fifoA := rfl
@[simp] theorem returnByte_fifoB (v : Byte) (s : State) : (returnByte v s).fifoB = s.fifoB := rfl
@[simp] theorem returnByte_sigloss (v : Byte) (s : State) : (returnByte v s).sigloss = s.sigloss := rfl
@[simp] theorem returnByte_paletteDirty (v : Byte) (s : State) :
    (returnByte v s).paletteDirty = s.paletteDirty := rfl
@[simp] theorem returnByte_overlayDirty (v : Byte) (s : State) :
    (returnByte v s).overlayDirty = s.overlayDirty := rfl
@[simp] theorem returnByte_transparency (v : Byte) (s : State) :
    (returnByte v s).transparency = s.transparency := rfl
@[simp] theorem returnByte_irqMainPeriodic (v : Byte) (s : State) :
    (returnByte v s).irqMainPeriodic = s.irqMainPeriodic := rfl
@[simp] theorem returnByte_irqAMbox (v : Byte) (s : State) :
    (returnByte v s).irqAMbox = s.irqAMbox := rfl
@[simp] theorem returnByte_irqASec (v : Byte) (s : State) : (returnByte v s).irqASec = s.irqASec := rfl
@[simp] theorem returnByte_irqBMbox (v : Byte) (s : State) :
    (returnByte v s).irqBMbox = s.irqBMbox := rfl
@[simp] theorem returnByte_irqBSec (v : Byte) (s : State) : (returnByte v s).irqBSec = s.irqBSec := rfl
@[simp] theorem returnByte_bSecEn (v : Byte) (s : State) : (returnByte v s).bSecEn = s.bSecEn := rfl
@[simp] theorem returnByte_ldFrame (v : Byte) (s : State) : (returnByte v s).ldFrame = s.ldFrame := rfl
@[simp] theorem returnByte_result (v : Byte) (s : State) : (returnByte v s).result = .byte v := rfl
@[simp] theorem returnByte_events (v : Byte) (s : State) : (returnByte v s).events = s.events := rfl
@[simp] theorem returnByte_input (v : Byte) (s : State) : (returnByte v s).input = s.input := rfl
@[simp] theorem returnByte_freeCount (v : Byte) (s : State) :
    (returnByte v s).freeCount = s.freeCount := rfl

/-! ### returnFlag -/

@[simp] theorem returnFlag_mem0 (ok : Bool) (s : State) : (returnFlag ok s).mem0 = s.mem0 := rfl
@[simp] theorem returnFlag_mem1 (ok : Bool) (s : State) : (returnFlag ok s).mem1 = s.mem1 := rfl
@[simp] theorem returnFlag_mem2 (ok : Bool) (s : State) : (returnFlag ok s).mem2 = s.mem2 := rfl
@[simp] theorem returnFlag_dipSw (ok : Bool) (s : State) : (returnFlag ok s).dipSw = s.dipSw := rfl
@[simp] theorem returnFlag_serviceSw (ok : Bool) (s : State) :
    (returnFlag ok s).serviceSw = s.serviceSw := rfl
@[simp] theorem returnFlag_ctrlLatch (ok : Bool) (s : State) :
    (returnFlag ok s).ctrlLatch = s.ctrlLatch := rfl
@[simp] theorem returnFlag_decoderSelect (ok : Bool) (s : State) :
    (returnFlag ok s).decoderSelect = s.decoderSelect := rfl
@[simp] theorem returnFlag_audioReady (ok : Bool) (s : State) :
    (returnFlag ok s).audioReady = s.audioReady := rfl
@[simp] theorem returnFlag_baseOffset (ok : Bool) (s : State) :
    (returnFlag ok s).baseOffset = s.baseOffset := rfl
@[simp] theorem returnFlag_position (ok : Bool) (s : State) :
    (returnFlag ok s).position = s.position := rfl
@[simp] theorem returnFlag_prevFrame (ok : Bool) (s : State) :
    (returnFlag ok s).prevFrame = s.prevFrame := rfl
@[simp] theorem returnFlag_prevCmd (ok : Bool) (s : State) :
    (returnFlag ok s).prevCmd = s.prevCmd := rfl
@[simp] theorem returnFlag_fifoA (ok : Bool) (s : State) : (returnFlag ok s).fifoA = s.fifoA := rfl
@[simp] theorem returnFlag_fifoB (ok : Bool) (s : State) : (returnFlag ok s).fifoB = s.fifoB := rfl
@[simp] theorem returnFlag_sigloss (ok : Bool) (s : State) :
    (returnFlag ok s).sigloss = s.sigloss := rfl
@[simp] theorem returnFlag_paletteDirty (ok : Bool) (s : State) :
    (returnFlag ok s).paletteDirty = s.paletteDirty := rfl
@[simp] theorem returnFlag_overlayDirty (ok : Bool) (s : State) :
    (returnFlag ok s).overlayDirty = s.overlayDirty := rfl
@[simp] theorem returnFlag_transparency (ok : Bool) (s : State) :
    (returnFlag ok s).transparency = s.transparency := rfl
@[simp] theorem returnFlag_irqMainPeriodic (ok : Bool) (s : State) :
    (returnFlag ok s).irqMainPeriodic = s.irqMainPeriodic := rfl
@[simp] theorem returnFlag_irqAMbox (ok : Bool) (s : State) :
    (returnFlag ok s).irqAMbox = s.irqAMbox := rfl
@[simp] theorem returnFlag_irqASec (ok : Bool) (s : State) :
    (returnFlag ok s).irqASec = s.irqASec := rfl
@[simp] theorem returnFlag_irqBMbox (ok : Bool) (s : State) :
    (returnFlag ok s).irqBMbox = s.irqBMbox := rfl
@[simp] theorem returnFlag_irqBSec (ok : Bool) (s : State) :
    (returnFlag ok s).irqBSec = s.irqBSec := rfl
@[simp] theorem returnFlag_bSecEn (ok : Bool) (s : State) : (returnFlag ok s).bSecEn = s.bSecEn := rfl
@[simp] theorem returnFlag_ldFrame (ok : Bool) (s : State) :
    (returnFlag ok s).ldFrame = s.ldFrame := rfl
@[simp] theorem returnFlag_result (ok : Bool) (s : State) : (returnFlag ok s).result = .flag ok := rfl
@[simp] theorem returnFlag_events (ok : Bool) (s : State) : (returnFlag ok s).events = s.events := rfl
@[simp] theorem returnFlag_input (ok : Bool) (s : State) : (returnFlag ok s).input = s.input := rfl
@[simp] theorem returnFlag_freeCount (ok : Bool) (s : State) :
    (returnFlag ok s).freeCount = s.freeCount := rfl

/-! ### presentNext -/

@[simp] theorem presentNext_mem0 (w : OpWord) (s : State) : (presentNext w s).mem0 = s.mem0 := rfl
@[simp] theorem presentNext_mem1 (w : OpWord) (s : State) : (presentNext w s).mem1 = s.mem1 := rfl
@[simp] theorem presentNext_mem2 (w : OpWord) (s : State) : (presentNext w s).mem2 = s.mem2 := rfl
@[simp] theorem presentNext_dipSw (w : OpWord) (s : State) : (presentNext w s).dipSw = s.dipSw := rfl
@[simp] theorem presentNext_serviceSw (w : OpWord) (s : State) :
    (presentNext w s).serviceSw = s.serviceSw := rfl
@[simp] theorem presentNext_ctrlLatch (w : OpWord) (s : State) :
    (presentNext w s).ctrlLatch = s.ctrlLatch := rfl
@[simp] theorem presentNext_decoderSelect (w : OpWord) (s : State) :
    (presentNext w s).decoderSelect = s.decoderSelect := rfl
@[simp] theorem presentNext_audioReady (w : OpWord) (s : State) :
    (presentNext w s).audioReady = s.audioReady := rfl
@[simp] theorem presentNext_baseOffset (w : OpWord) (s : State) :
    (presentNext w s).baseOffset = s.baseOffset := rfl
@[simp] theorem presentNext_position (w : OpWord) (s : State) :
    (presentNext w s).position = s.position := rfl
@[simp] theorem presentNext_prevFrame (w : OpWord) (s : State) :
    (presentNext w s).prevFrame = s.prevFrame := rfl
@[simp] theorem presentNext_prevCmd (w : OpWord) (s : State) :
    (presentNext w s).prevCmd = s.prevCmd := rfl
@[simp] theorem presentNext_fifoA (w : OpWord) (s : State) : (presentNext w s).fifoA = s.fifoA := rfl
@[simp] theorem presentNext_fifoB (w : OpWord) (s : State) : (presentNext w s).fifoB = s.fifoB := rfl
@[simp] theorem presentNext_sigloss (w : OpWord) (s : State) :
    (presentNext w s).sigloss = s.sigloss := rfl
@[simp] theorem presentNext_paletteDirty (w : OpWord) (s : State) :
    (presentNext w s).paletteDirty = s.paletteDirty := rfl
@[simp] theorem presentNext_overlayDirty (w : OpWord) (s : State) :
    (presentNext w s).overlayDirty = s.overlayDirty := rfl
@[simp] theorem presentNext_transparency (w : OpWord) (s : State) :
    (presentNext w s).transparency = s.transparency := rfl
@[simp] theorem presentNext_irqMainPeriodic (w : OpWord) (s : State) :
    (presentNext w s).irqMainPeriodic = s.irqMainPeriodic := rfl
@[simp] theorem presentNext_irqAMbox (w : OpWord) (s : State) :
    (presentNext w s).irqAMbox = s.irqAMbox := rfl
@[simp] theorem presentNext_irqASec (w : OpWord) (s : State) :
    (presentNext w s).irqASec = s.irqASec := rfl
@[simp] theorem presentNext_irqBMbox (w : OpWord) (s : State) :
    (presentNext w s).irqBMbox = s.irqBMbox := rfl
@[simp] theorem presentNext_irqBSec (w : OpWord) (s : State) :
    (presentNext w s).irqBSec = s.irqBSec := rfl
@[simp] theorem presentNext_bSecEn (w : OpWord) (s : State) :
    (presentNext w s).bSecEn = s.bSecEn := rfl
@[simp] theorem presentNext_ldFrame (w : OpWord) (s : State) :
    (presentNext w s).ldFrame = s.ldFrame := rfl
@[simp] theorem presentNext_result (w : OpWord) (s : State) :
    (presentNext w s).result = s.result := rfl
@[simp] theorem presentNext_events (w : OpWord) (s : State) :
    (presentNext w s).events = s.events := rfl
@[simp] theorem presentNext_input (w : OpWord) (s : State) :
    (presentNext w s).input = w :: s.input := rfl
@[simp] theorem presentNext_freeCount (w : OpWord) (s : State) :
    (presentNext w s).freeCount = s.freeCount := rfl

/-! ### setImage and storeByte: every field but the image of that processor -/

@[simp] theorem setImage_dipSw (p : Proc) (m : Memory) (s : State) :
    (setImage p m s).dipSw = s.dipSw := by cases p <;> rfl
@[simp] theorem setImage_serviceSw (p : Proc) (m : Memory) (s : State) :
    (setImage p m s).serviceSw = s.serviceSw := by cases p <;> rfl
@[simp] theorem setImage_ctrlLatch (p : Proc) (m : Memory) (s : State) :
    (setImage p m s).ctrlLatch = s.ctrlLatch := by cases p <;> rfl
@[simp] theorem setImage_decoderSelect (p : Proc) (m : Memory) (s : State) :
    (setImage p m s).decoderSelect = s.decoderSelect := by cases p <;> rfl
@[simp] theorem setImage_audioReady (p : Proc) (m : Memory) (s : State) :
    (setImage p m s).audioReady = s.audioReady := by cases p <;> rfl
@[simp] theorem setImage_baseOffset (p : Proc) (m : Memory) (s : State) :
    (setImage p m s).baseOffset = s.baseOffset := by cases p <;> rfl
@[simp] theorem setImage_position (p : Proc) (m : Memory) (s : State) :
    (setImage p m s).position = s.position := by cases p <;> rfl
@[simp] theorem setImage_prevFrame (p : Proc) (m : Memory) (s : State) :
    (setImage p m s).prevFrame = s.prevFrame := by cases p <;> rfl
@[simp] theorem setImage_prevCmd (p : Proc) (m : Memory) (s : State) :
    (setImage p m s).prevCmd = s.prevCmd := by cases p <;> rfl
@[simp] theorem setImage_fifoA (p : Proc) (m : Memory) (s : State) :
    (setImage p m s).fifoA = s.fifoA := by cases p <;> rfl
@[simp] theorem setImage_fifoB (p : Proc) (m : Memory) (s : State) :
    (setImage p m s).fifoB = s.fifoB := by cases p <;> rfl
@[simp] theorem setImage_sigloss (p : Proc) (m : Memory) (s : State) :
    (setImage p m s).sigloss = s.sigloss := by cases p <;> rfl
@[simp] theorem setImage_paletteDirty (p : Proc) (m : Memory) (s : State) :
    (setImage p m s).paletteDirty = s.paletteDirty := by cases p <;> rfl
@[simp] theorem setImage_overlayDirty (p : Proc) (m : Memory) (s : State) :
    (setImage p m s).overlayDirty = s.overlayDirty := by cases p <;> rfl
@[simp] theorem setImage_transparency (p : Proc) (m : Memory) (s : State) :
    (setImage p m s).transparency = s.transparency := by cases p <;> rfl
@[simp] theorem setImage_irqMainPeriodic (p : Proc) (m : Memory) (s : State) :
    (setImage p m s).irqMainPeriodic = s.irqMainPeriodic := by cases p <;> rfl
@[simp] theorem setImage_irqAMbox (p : Proc) (m : Memory) (s : State) :
    (setImage p m s).irqAMbox = s.irqAMbox := by cases p <;> rfl
@[simp] theorem setImage_irqASec (p : Proc) (m : Memory) (s : State) :
    (setImage p m s).irqASec = s.irqASec := by cases p <;> rfl
@[simp] theorem setImage_irqBMbox (p : Proc) (m : Memory) (s : State) :
    (setImage p m s).irqBMbox = s.irqBMbox := by cases p <;> rfl
@[simp] theorem setImage_irqBSec (p : Proc) (m : Memory) (s : State) :
    (setImage p m s).irqBSec = s.irqBSec := by cases p <;> rfl
@[simp] theorem setImage_bSecEn (p : Proc) (m : Memory) (s : State) :
    (setImage p m s).bSecEn = s.bSecEn := by cases p <;> rfl
@[simp] theorem setImage_ldFrame (p : Proc) (m : Memory) (s : State) :
    (setImage p m s).ldFrame = s.ldFrame := by cases p <;> rfl
@[simp] theorem setImage_result (p : Proc) (m : Memory) (s : State) :
    (setImage p m s).result = s.result := by cases p <;> rfl
@[simp] theorem setImage_events (p : Proc) (m : Memory) (s : State) :
    (setImage p m s).events = s.events := by cases p <;> rfl
@[simp] theorem setImage_input (p : Proc) (m : Memory) (s : State) :
    (setImage p m s).input = s.input := by cases p <;> rfl
@[simp] theorem setImage_freeCount (p : Proc) (m : Memory) (s : State) :
    (setImage p m s).freeCount = s.freeCount := by cases p <;> rfl
@[simp] theorem image_setImage_same (p : Proc) (m : Memory) (s : State) : image p (setImage p m s) = m := by
  cases p <;> rfl
@[simp] theorem image_setImage_other {p q : Proc} (h : q ≠ p) (m : Memory) (s : State) :
    image q (setImage p m s) = image q s := by
  cases p <;> cases q <;> first | rfl | exact absurd rfl h
@[simp] theorem setImage_image (p : Proc) (s : State) : setImage p (image p s) s = s := by cases p <;> rfl
@[simp] theorem storeByte_dipSw (c : Configuration) (p : Proc) (a : Nat) (v : Byte) (s : State) :
    (storeByte c p a v s).dipSw = s.dipSw := setImage_dipSw _ _ _
@[simp] theorem storeByte_serviceSw (c : Configuration) (p : Proc) (a : Nat) (v : Byte) (s : State) :
    (storeByte c p a v s).serviceSw = s.serviceSw := setImage_serviceSw _ _ _
@[simp] theorem storeByte_ctrlLatch (c : Configuration) (p : Proc) (a : Nat) (v : Byte) (s : State) :
    (storeByte c p a v s).ctrlLatch = s.ctrlLatch := setImage_ctrlLatch _ _ _
@[simp] theorem storeByte_decoderSelect (c : Configuration) (p : Proc) (a : Nat) (v : Byte) (s : State) :
    (storeByte c p a v s).decoderSelect = s.decoderSelect := setImage_decoderSelect _ _ _
@[simp] theorem storeByte_audioReady (c : Configuration) (p : Proc) (a : Nat) (v : Byte) (s : State) :
    (storeByte c p a v s).audioReady = s.audioReady := setImage_audioReady _ _ _
@[simp] theorem storeByte_baseOffset (c : Configuration) (p : Proc) (a : Nat) (v : Byte) (s : State) :
    (storeByte c p a v s).baseOffset = s.baseOffset := setImage_baseOffset _ _ _
@[simp] theorem storeByte_position (c : Configuration) (p : Proc) (a : Nat) (v : Byte) (s : State) :
    (storeByte c p a v s).position = s.position := setImage_position _ _ _
@[simp] theorem storeByte_prevFrame (c : Configuration) (p : Proc) (a : Nat) (v : Byte) (s : State) :
    (storeByte c p a v s).prevFrame = s.prevFrame := setImage_prevFrame _ _ _
@[simp] theorem storeByte_prevCmd (c : Configuration) (p : Proc) (a : Nat) (v : Byte) (s : State) :
    (storeByte c p a v s).prevCmd = s.prevCmd := setImage_prevCmd _ _ _
@[simp] theorem storeByte_fifoA (c : Configuration) (p : Proc) (a : Nat) (v : Byte) (s : State) :
    (storeByte c p a v s).fifoA = s.fifoA := setImage_fifoA _ _ _
@[simp] theorem storeByte_fifoB (c : Configuration) (p : Proc) (a : Nat) (v : Byte) (s : State) :
    (storeByte c p a v s).fifoB = s.fifoB := setImage_fifoB _ _ _
@[simp] theorem storeByte_sigloss (c : Configuration) (p : Proc) (a : Nat) (v : Byte) (s : State) :
    (storeByte c p a v s).sigloss = s.sigloss := setImage_sigloss _ _ _
@[simp] theorem storeByte_paletteDirty (c : Configuration) (p : Proc) (a : Nat) (v : Byte) (s : State) :
    (storeByte c p a v s).paletteDirty = s.paletteDirty := setImage_paletteDirty _ _ _
@[simp] theorem storeByte_overlayDirty (c : Configuration) (p : Proc) (a : Nat) (v : Byte) (s : State) :
    (storeByte c p a v s).overlayDirty = s.overlayDirty := setImage_overlayDirty _ _ _
@[simp] theorem storeByte_transparency (c : Configuration) (p : Proc) (a : Nat) (v : Byte) (s : State) :
    (storeByte c p a v s).transparency = s.transparency := setImage_transparency _ _ _
@[simp] theorem storeByte_irqMainPeriodic (c : Configuration) (p : Proc) (a : Nat) (v : Byte) (s : State) :
    (storeByte c p a v s).irqMainPeriodic = s.irqMainPeriodic := setImage_irqMainPeriodic _ _ _
@[simp] theorem storeByte_irqAMbox (c : Configuration) (p : Proc) (a : Nat) (v : Byte) (s : State) :
    (storeByte c p a v s).irqAMbox = s.irqAMbox := setImage_irqAMbox _ _ _
@[simp] theorem storeByte_irqASec (c : Configuration) (p : Proc) (a : Nat) (v : Byte) (s : State) :
    (storeByte c p a v s).irqASec = s.irqASec := setImage_irqASec _ _ _
@[simp] theorem storeByte_irqBMbox (c : Configuration) (p : Proc) (a : Nat) (v : Byte) (s : State) :
    (storeByte c p a v s).irqBMbox = s.irqBMbox := setImage_irqBMbox _ _ _
@[simp] theorem storeByte_irqBSec (c : Configuration) (p : Proc) (a : Nat) (v : Byte) (s : State) :
    (storeByte c p a v s).irqBSec = s.irqBSec := setImage_irqBSec _ _ _
@[simp] theorem storeByte_bSecEn (c : Configuration) (p : Proc) (a : Nat) (v : Byte) (s : State) :
    (storeByte c p a v s).bSecEn = s.bSecEn := setImage_bSecEn _ _ _
@[simp] theorem storeByte_ldFrame (c : Configuration) (p : Proc) (a : Nat) (v : Byte) (s : State) :
    (storeByte c p a v s).ldFrame = s.ldFrame := setImage_ldFrame _ _ _
@[simp] theorem storeByte_result (c : Configuration) (p : Proc) (a : Nat) (v : Byte) (s : State) :
    (storeByte c p a v s).result = s.result := setImage_result _ _ _
@[simp] theorem storeByte_events (c : Configuration) (p : Proc) (a : Nat) (v : Byte) (s : State) :
    (storeByte c p a v s).events = s.events := setImage_events _ _ _
@[simp] theorem storeByte_input (c : Configuration) (p : Proc) (a : Nat) (v : Byte) (s : State) :
    (storeByte c p a v s).input = s.input := setImage_input _ _ _
@[simp] theorem storeByte_freeCount (c : Configuration) (p : Proc) (a : Nat) (v : Byte) (s : State) :
    (storeByte c p a v s).freeCount = s.freeCount := setImage_freeCount _ _ _

/-! ### The image of a processor under an update that touches none -/

@[simp] theorem image_startOp (p : Proc) (s : State) :
    image p (startOp s) = image p s := by cases p <;> rfl
@[simp] theorem image_emit (p : Proc) (e : Event) (s : State) :
    image p (emit e s) = image p s := by cases p <;> rfl
@[simp] theorem image_returnByte (p : Proc) (v : Byte) (s : State) :
    image p (returnByte v s) = image p s := by cases p <;> rfl
@[simp] theorem image_returnFlag (p : Proc) (ok : Bool) (s : State) :
    image p (returnFlag ok s) = image p s := by cases p <;> rfl
@[simp] theorem image_setLine (p : Proc) (l : Line) (b : Bool) (s : State) :
    image p (setLine l b s) = image p s := by cases p <;> cases l <;> rfl
@[simp] theorem image_driveLine (p : Proc) (l : Line) (b : Bool) (s : State) :
    image p (driveLine l b s) = image p s := by cases p <;> cases l <;> rfl
@[simp] theorem image_pulseLine (p : Proc) (l : Line) (s : State) :
    image p (pulseLine l s) = image p s := by simp [pulseLine]

/-! ### setLine, driveLine, pulseLine: every field but the line levels -/

@[simp] theorem setLine_mem0 (l : Line) (b : Bool) (s : State) :
    (setLine l b s).mem0 = s.mem0 := by cases l <;> rfl
@[simp] theorem setLine_mem1 (l : Line) (b : Bool) (s : State) :
    (setLine l b s).mem1 = s.mem1 := by cases l <;> rfl
@[simp] theorem setLine_mem2 (l : Line) (b : Bool) (s : State) :
    (setLine l b s).mem2 = s.mem2 := by cases l <;> rfl
@[simp] theorem setLine_dipSw (l : Line) (b : Bool) (s : State) :
    (setLine l b s).dipSw = s.dipSw := by cases l <;> rfl
@[simp] theorem setLine_serviceSw (l : Line) (b : Bool) (s : State) :
    (setLine l b s).serviceSw = s.serviceSw := by cases l <;> rfl
@[simp] theorem setLine_ctrlLatch (l : Line) (b : Bool) (s : State) :
    (setLine l b s).ctrlLatch = s.ctrlLatch := by cases l <;> rfl
@[simp] theorem setLine_decoderSelect (l : Line) (b : Bool) (s : State) :
    (setLine l b s).decoderSelect = s.decoderSelect := by cases l <;> rfl
@[simp] theorem setLine_audioReady (l : Line) (b : Bool) (s : State) :
    (setLine l b s).audioReady = s.audioReady := by cases l <;> rfl
@[simp] theorem setLine_baseOffset (l : Line) (b : Bool) (s : State) :
    (setLine l b s).baseOffset = s.baseOffset := by cases l <;> rfl
@[simp] theorem setLine_position (l : Line) (b : Bool) (s : State) :
    (setLine l b s).position = s.position := by cases l <;> rfl
@[simp] theorem setLine_prevFrame (l : Line) (b : Bool) (s : State) :
    (setLine l b s).prevFrame = s.prevFrame := by cases l <;> rfl
@[simp] theorem setLine_prevCmd (l : Line) (b : Bool) (s : State) :
    (setLine l b s).prevCmd = s.prevCmd := by cases l <;> rfl
@[simp] theorem setLine_fifoA (l : Line) (b : Bool) (s : State) :
    (setLine l b s).fifoA = s.fifoA := by cases l <;> rfl
@[simp] theorem setLine_fifoB (l : Line) (b : Bool) (s : State) :
    (setLine l b s).fifoB = s.fifoB := by cases l <;> rfl
@[simp] theorem setLine_sigloss (l : Line) (b : Bool) (s : State) :
    (setLine l b s).sigloss = s.sigloss := by cases l <;> rfl
@[simp] theorem setLine_paletteDirty (l : Line) (b : Bool) (s : State) :
    (setLine l b s).paletteDirty = s.paletteDirty := by cases l <;> rfl
@[simp] theorem setLine_overlayDirty (l : Line) (b : Bool) (s : State) :
    (setLine l b s).overlayDirty = s.overlayDirty := by cases l <;> rfl
@[simp] theorem setLine_transparency (l : Line) (b : Bool) (s : State) :
    (setLine l b s).transparency = s.transparency := by cases l <;> rfl
@[simp] theorem setLine_bSecEn (l : Line) (b : Bool) (s : State) :
    (setLine l b s).bSecEn = s.bSecEn := by cases l <;> rfl
@[simp] theorem setLine_ldFrame (l : Line) (b : Bool) (s : State) :
    (setLine l b s).ldFrame = s.ldFrame := by cases l <;> rfl
@[simp] theorem setLine_result (l : Line) (b : Bool) (s : State) :
    (setLine l b s).result = s.result := by cases l <;> rfl
@[simp] theorem setLine_events (l : Line) (b : Bool) (s : State) :
    (setLine l b s).events = s.events := by cases l <;> rfl
@[simp] theorem setLine_input (l : Line) (b : Bool) (s : State) :
    (setLine l b s).input = s.input := by cases l <;> rfl
@[simp] theorem setLine_freeCount (l : Line) (b : Bool) (s : State) :
    (setLine l b s).freeCount = s.freeCount := by cases l <;> rfl
@[simp] theorem driveLine_mem0 (l : Line) (b : Bool) (s : State) :
    (driveLine l b s).mem0 = s.mem0 := by cases l <;> rfl
@[simp] theorem driveLine_mem1 (l : Line) (b : Bool) (s : State) :
    (driveLine l b s).mem1 = s.mem1 := by cases l <;> rfl
@[simp] theorem driveLine_mem2 (l : Line) (b : Bool) (s : State) :
    (driveLine l b s).mem2 = s.mem2 := by cases l <;> rfl
@[simp] theorem driveLine_dipSw (l : Line) (b : Bool) (s : State) :
    (driveLine l b s).dipSw = s.dipSw := by cases l <;> rfl
@[simp] theorem driveLine_serviceSw (l : Line) (b : Bool) (s : State) :
    (driveLine l b s).serviceSw = s.serviceSw := by cases l <;> rfl
@[simp] theorem driveLine_ctrlLatch (l : Line) (b : Bool) (s : State) :
    (driveLine l b s).ctrlLatch = s.ctrlLatch := by cases l <;> rfl
@[simp] theorem driveLine_decoderSelect (l : Line) (b : Bool) (s : State) :
    (driveLine l b s).decoderSelect = s.decoderSelect := by cases l <;> rfl
@[simp] theorem driveLine_audioReady (l : Line) (b : Bool) (s : State) :
    (driveLine l b s).audioReady = s.audioReady := by cases l <;> rfl
@[simp] theorem driveLine_baseOffset (l : Line) (b : Bool) (s : State) :
    (driveLine l b s).baseOffset = s.baseOffset := by cases l <;> rfl
@[simp] theorem driveLine_position (l : Line) (b : Bool) (s : State) :
    (driveLine l b s).position = s.position := by cases l <;> rfl
@[simp] theorem driveLine_prevFrame (l : Line) (b : Bool) (s : State) :
    (driveLine l b s).prevFrame = s.prevFrame := by cases l <;> rfl
@[simp] theorem driveLine_prevCmd (l : Line) (b : Bool) (s : State) :
    (driveLine l b s).prevCmd = s.prevCmd := by cases l <;> rfl
@[simp] theorem driveLine_fifoA (l : Line) (b : Bool) (s : State) :
    (driveLine l b s).fifoA = s.fifoA := by cases l <;> rfl
@[simp] theorem driveLine_fifoB (l : Line) (b : Bool) (s : State) :
    (driveLine l b s).fifoB = s.fifoB := by cases l <;> rfl
@[simp] theorem driveLine_sigloss (l : Line) (b : Bool) (s : State) :
    (driveLine l b s).sigloss = s.sigloss := by cases l <;> rfl
@[simp] theorem driveLine_paletteDirty (l : Line) (b : Bool) (s : State) :
    (driveLine l b s).paletteDirty = s.paletteDirty := by cases l <;> rfl
@[simp] theorem driveLine_overlayDirty (l : Line) (b : Bool) (s : State) :
    (driveLine l b s).overlayDirty = s.overlayDirty := by cases l <;> rfl
@[simp] theorem driveLine_transparency (l : Line) (b : Bool) (s : State) :
    (driveLine l b s).transparency = s.transparency := by cases l <;> rfl
@[simp] theorem driveLine_bSecEn (l : Line) (b : Bool) (s : State) :
    (driveLine l b s).bSecEn = s.bSecEn := by cases l <;> rfl
@[simp] theorem driveLine_ldFrame (l : Line) (b : Bool) (s : State) :
    (driveLine l b s).ldFrame = s.ldFrame := by cases l <;> rfl
@[simp] theorem driveLine_result (l : Line) (b : Bool) (s : State) :
    (driveLine l b s).result = s.result := by cases l <;> rfl
@[simp] theorem driveLine_events (l : Line) (b : Bool) (s : State) :
    (driveLine l b s).events = s.events ++ [.irqLine l b] := by cases l <;> rfl
@[simp] theorem driveLine_input (l : Line) (b : Bool) (s : State) :
    (driveLine l b s).input = s.input := by cases l <;> rfl
@[simp] theorem driveLine_freeCount (l : Line) (b : Bool) (s : State) :
    (driveLine l b s).freeCount = s.freeCount := by cases l <;> rfl
@[simp] theorem pulseLine_mem0 (l : Line) (s : State) :
    (pulseLine l s).mem0 = s.mem0 := by simp [pulseLine]
@[simp] theorem pulseLine_mem1 (l : Line) (s : State) :
    (pulseLine l s).mem1 = s.mem1 := by simp [pulseLine]
@[simp] theorem pulseLine_mem2 (l : Line) (s : State) :
    (pulseLine l s).mem2 = s.mem2 := by simp [pulseLine]
@[simp] theorem pulseLine_dipSw (l : Line) (s : State) :
    (pulseLine l s).dipSw = s.dipSw := by simp [pulseLine]
@[simp] theorem pulseLine_serviceSw (l : Line) (s : State) :
    (pulseLine l s).serviceSw = s.serviceSw := by simp [pulseLine]
@[simp] theorem pulseLine_ctrlLatch (l : Line) (s : State) :
    (pulseLine l s).ctrlLatch = s.ctrlLatch := by simp [pulseLine]
@[simp] theorem pulseLine_decoderSelect (l : Line) (s : State) :
    (pulseLine l s).decoderSelect = s.decoderSelect := by simp [pulseLine]
@[simp] theorem pulseLine_audioReady (l : Line) (s : State) :
    (pulseLine l s).audioReady = s.audioReady := by simp [pulseLine]
@[simp] theorem pulseLine_baseOffset (l : Line) (s : State) :
    (pulseLine l s).baseOffset = s.baseOffset := by simp [pulseLine]
@[simp] theorem pulseLine_position (l : Line) (s : State) :
    (pulseLine l s).position = s.position := by simp [pulseLine]
@[simp] theorem pulseLine_prevFrame (l : Line) (s : State) :
    (pulseLine l s).prevFrame = s.prevFrame := by simp [pulseLine]
@[simp] theorem pulseLine_prevCmd (l : Line) (s : State) :
    (pulseLine l s).prevCmd = s.prevCmd := by simp [pulseLine]
@[simp] theorem pulseLine_fifoA (l : Line) (s : State) :
    (pulseLine l s).fifoA = s.fifoA := by simp [pulseLine]
@[simp] theorem pulseLine_fifoB (l : Line) (s : State) :
    (pulseLine l s).fifoB = s.fifoB := by simp [pulseLine]
@[simp] theorem pulseLine_sigloss (l : Line) (s : State) :
    (pulseLine l s).sigloss = s.sigloss := by simp [pulseLine]
@[simp] theorem pulseLine_paletteDirty (l : Line) (s : State) :
    (pulseLine l s).paletteDirty = s.paletteDirty := by simp [pulseLine]
@[simp] theorem pulseLine_overlayDirty (l : Line) (s : State) :
    (pulseLine l s).overlayDirty = s.overlayDirty := by simp [pulseLine]
@[simp] theorem pulseLine_transparency (l : Line) (s : State) :
    (pulseLine l s).transparency = s.transparency := by simp [pulseLine]
@[simp] theorem pulseLine_bSecEn (l : Line) (s : State) :
    (pulseLine l s).bSecEn = s.bSecEn := by simp [pulseLine]
@[simp] theorem pulseLine_ldFrame (l : Line) (s : State) :
    (pulseLine l s).ldFrame = s.ldFrame := by simp [pulseLine]
@[simp] theorem pulseLine_result (l : Line) (s : State) :
    (pulseLine l s).result = s.result := by simp [pulseLine]
@[simp] theorem pulseLine_events (l : Line) (s : State) :
    (pulseLine l s).events = s.events ++ [.irqLine l false, .irqLine l true] := by simp [pulseLine]
@[simp] theorem pulseLine_input (l : Line) (s : State) :
    (pulseLine l s).input = s.input := by simp [pulseLine]
@[simp] theorem pulseLine_freeCount (l : Line) (s : State) :
    (pulseLine l s).freeCount = s.freeCount := by simp [pulseLine]
@[simp] theorem lineLevel_setLine_same (l : Line) (b : Bool) (s : State) : lineLevel l (setLine l b s) = b := by
  cases l <;> rfl
@[simp] theorem lineLevel_setLine_other {l l' : Line} (h : l' ≠ l) (b : Bool) (s : State) :
    lineLevel l' (setLine l b s) = lineLevel l' s := by
  cases l <;> cases l' <;> first | rfl | exact absurd rfl h
@[simp] theorem lineLevel_emit (l : Line) (e : Event) (s : State) : lineLevel l (emit e s) = lineLevel l s := by
  cases l <;> rfl
@[simp] theorem lineLevel_startOp (l : Line) (s : State) : lineLevel l (startOp s) = lineLevel l s := by
  cases l <;> rfl
@[simp] theorem lineLevel_driveLine_same (l : Line) (b : Bool) (s : State) :
    lineLevel l (driveLine l b s) = b := by simp [driveLine]
@[simp] theorem lineLevel_driveLine_other {l l' : Line} (h : l' ≠ l) (b : Bool) (s : State) :
    lineLevel l' (driveLine l b s) = lineLevel l' s := by simp [driveLine, h]
@[simp] theorem lineLevel_pulseLine_same (l : Line) (s : State) : lineLevel l (pulseLine l s) = true := by
  simp [pulseLine]
@[simp] theorem lineLevel_pulseLine_other {l l' : Line} (h : l' ≠ l) (s : State) :
    lineLevel l' (pulseLine l s) = lineLevel l' s := by simp [pulseLine, h]

end Sys2Proof.Machine
end

