-- ==== Sys2Proof/Laws/Memory.lean ====
section
/-! SUPPORT. The memory image: a byte reads as it was last written, a write leaves every other byte alone,
and every write keeps the canonical form. -/

namespace Sys2Proof.Machine

variable {unlisted : Nat → Byte}

/-- A lower bound may be weakened. -/
theorem memWfFrom_mono {m : Memory} {lo lo' : Nat} (hle : lo' ≤ lo) (h : memWfFrom unlisted lo m = true) :
    memWfFrom unlisted lo' m = true := by
  cases m with
  | nil => rfl
  | cons cell rest =>
    obtain ⟨b, w⟩ := cell
    simp only [memWfFrom, Bool.and_eq_true, decide_eq_true_eq] at h ⊢
    exact ⟨⟨⟨by omega, h.1.1.2⟩, h.1.2⟩, h.2⟩

/-- Below the bound of a canonical list, every address reads as unlisted. -/
theorem memRead_below {m : Memory} {lo a : Nat} (h : memWfFrom unlisted lo m = true) (ha : a < lo) :
    memRead unlisted m a = unlisted a := by
  induction m generalizing lo with
  | nil => rfl
  | cons cell rest ih =>
    obtain ⟨b, w⟩ := cell
    simp only [memWfFrom, Bool.and_eq_true, decide_eq_true_eq] at h
    have hne : a ≠ b := by omega
    simp only [memRead, if_neg hne]
    exact ih h.2 (by omega)

/-- Read after write, the same address: the byte written. -/
theorem memRead_memWrite_same {m : Memory} {lo : Nat} (h : memWfFrom unlisted lo m = true) (a : Nat)
    (v : Byte) : memRead unlisted (memWrite unlisted m a v) a = v := by
  induction m generalizing lo with
  | nil => by_cases hv : v = unlisted a <;> simp [memWrite, memRead, hv]
  | cons cell rest ih =>
    obtain ⟨b, w⟩ := cell
    have hwf := h
    simp only [memWfFrom, Bool.and_eq_true, decide_eq_true_eq] at h
    rcases Nat.lt_trichotomy a b with hab | hab | hab
    · by_cases hv : v = unlisted a
      · simp only [memWrite, if_pos hab, if_pos hv]
        have hne : a ≠ b := by omega
        rw [memRead, if_neg hne, memRead_below h.2 (by omega), hv]
      · simp [memWrite, hab, hv, memRead]
    · subst hab
      by_cases hv : v = unlisted a
      · simp only [memWrite, Nat.lt_irrefl, if_false, if_true, if_pos hv]
        rw [memRead_below h.2 (by omega), hv]
      · simp [memWrite, hv, memRead]
    · have hlt : ¬ a < b := by omega
      have hne : a ≠ b := by omega
      simp only [memWrite, if_neg hlt, if_neg hne, memRead]
      exact ih h.2

/-- Read after write, another address: unchanged. -/
theorem memRead_memWrite_other {m : Memory} {lo : Nat} (h : memWfFrom unlisted lo m = true) {a a' : Nat}
    (hne : a' ≠ a) (v : Byte) :
    memRead unlisted (memWrite unlisted m a v) a' = memRead unlisted m a' := by
  induction m generalizing lo with
  | nil => by_cases hv : v = unlisted a <;> simp [memWrite, memRead, hv, hne]
  | cons cell rest ih =>
    obtain ⟨b, w⟩ := cell
    simp only [memWfFrom, Bool.and_eq_true, decide_eq_true_eq] at h
    rcases Nat.lt_trichotomy a b with hab | hab | hab
    · by_cases hv : v = unlisted a
      · simp [memWrite, hab, hv]
      · simp [memWrite, hab, hv, memRead, hne]
    · subst hab
      by_cases hv : v = unlisted a
      · simp [memWrite, hv, memRead, hne]
      · simp [memWrite, hv, memRead, hne]
    · have hlt : ¬ a < b := by omega
      have hab' : a ≠ b := by omega
      simp only [memWrite, if_neg hlt, if_neg hab', memRead]
      by_cases hb : a' = b
      · simp [hb]
      · simp only [if_neg hb]; exact ih h.2

/-- A write inside the image keeps the canonical form. -/
theorem memWfFrom_memWrite {m : Memory} {lo a : Nat} (h : memWfFrom unlisted lo m = true) (hlo : lo ≤ a)
    (ha : a < Config.memSize) (v : Byte) : memWfFrom unlisted lo (memWrite unlisted m a v) = true := by
  induction m generalizing lo with
  | nil => by_cases hv : v = unlisted a <;> simp [memWrite, memWfFrom, hv, hlo, ha]
  | cons cell rest ih =>
    obtain ⟨b, w⟩ := cell
    have hwf := h
    simp only [memWfFrom, Bool.and_eq_true, decide_eq_true_eq] at h
    rcases Nat.lt_trichotomy a b with hab | hab | hab
    · by_cases hv : v = unlisted a
      · simpa [memWrite, hab, hv] using hwf
      · simp only [memWrite, if_pos hab, if_neg hv, memWfFrom, Bool.and_eq_true, decide_eq_true_eq]
        exact ⟨⟨⟨hlo, ha⟩, by simpa using hv⟩, ⟨⟨by omega, h.1.1.2⟩, h.1.2⟩, h.2⟩
    · subst hab
      by_cases hv : v = unlisted a
      · simp only [memWrite, Nat.lt_irrefl, if_false, if_true, if_pos hv]
        exact memWfFrom_mono (by omega) h.2
      · simp only [memWrite, Nat.lt_irrefl, if_false, if_true, if_neg hv, memWfFrom, Bool.and_eq_true,
          decide_eq_true_eq]
        exact ⟨⟨⟨hlo, ha⟩, by simpa using hv⟩, h.2⟩
    · have hlt : ¬ a < b := by omega
      have hne : a ≠ b := by omega
      simp only [memWrite, if_neg hlt, if_neg hne, memWfFrom, Bool.and_eq_true, decide_eq_true_eq]
      exact ⟨⟨⟨h.1.1.1, h.1.1.2⟩, h.1.2⟩, ih h.2 (by omega)⟩

/-- Writing the byte an address already reads as leaves a canonical list as it is. -/
theorem memWrite_memRead {m : Memory} {lo : Nat} (h : memWfFrom unlisted lo m = true) (a : Nat) :
    memWrite unlisted m a (memRead unlisted m a) = m := by
  induction m generalizing lo with
  | nil => simp [memWrite, memRead]
  | cons cell rest ih =>
    obtain ⟨b, w⟩ := cell
    simp only [memWfFrom, Bool.and_eq_true, decide_eq_true_eq, bne_iff_ne] at h
    rcases Nat.lt_trichotomy a b with hab | hab | hab
    · have hne : a ≠ b := by omega
      have hr : memRead unlisted ((b, w) :: rest) a = unlisted a := by
        rw [memRead, if_neg hne, memRead_below h.2 (by omega)]
      rw [hr]
      simp [memWrite, hab]
    · subst hab
      simp [memWrite, memRead, h.1.2]
    · have hlt : ¬ a < b := by omega
      have hne : a ≠ b := by omega
      simp only [memWrite, if_neg hlt, if_neg hne, memRead]
      rw [ih h.2]

/-! ### The same, for one byte of a processor's image -/

theorem readByte_storeByte_same {c : Configuration} {p : Proc} {s : State}
    (h : (image p s).wf (powerOnByte c p) = true) (a : Nat) (v : Byte) :
    readByte c p a (storeByte c p a v s) = v := by
  simp only [readByte, storeByte, image_setImage_same]
  exact memRead_memWrite_same h a v

theorem readByte_storeByte_other {c : Configuration} {p : Proc} {s : State}
    (h : (image p s).wf (powerOnByte c p) = true) {a a' : Nat} (hne : a' ≠ a) (v : Byte) :
    readByte c p a' (storeByte c p a v s) = readByte c p a' s := by
  simp only [readByte, storeByte, image_setImage_same]
  exact memRead_memWrite_other h hne v

theorem readByte_storeByte_otherImage {c : Configuration} {p q : Proc} (hne : q ≠ p) (s : State) (a a' : Nat)
    (v : Byte) : readByte c q a' (storeByte c p a v s) = readByte c q a' s := by
  simp [readByte, storeByte, hne]

/-- Storing the byte already there changes nothing at all. -/
theorem storeByte_readByte {c : Configuration} {p : Proc} {s : State}
    (h : (image p s).wf (powerOnByte c p) = true) (a : Nat) :
    storeByte c p a (readByte c p a s) s = s := by
  have hw : memWrite (powerOnByte c p) (image p s) a (memRead (powerOnByte c p) (image p s) a) = image p s :=
    memWrite_memRead h a
  simp only [storeByte, readByte, hw, setImage_image]

/-- A masked address lies inside the image. -/
theorem maskAddr_lt (addr : BusAddr) : (maskAddr addr).toNat < Config.memSize := (maskAddr addr).isLt

/-- Every store at a masked address keeps every image canonical. -/
theorem image_storeByte_wf {c : Configuration} {p q : Proc} {s : State} {a : Nat}
    (h : ∀ r, (image r s).wf (powerOnByte c r) = true) (ha : a < Config.memSize) (v : Byte) :
    (image q (storeByte c p a v s)).wf (powerOnByte c q) = true := by
  by_cases hq : q = p
  · subst hq
    simp only [storeByte, image_setImage_same]
    exact memWfFrom_memWrite (h q) (Nat.zero_le a) ha v
  · simp only [storeByte, image_setImage_other hq]
    exact h q

end Sys2Proof.Machine
end

