-- ==== Sys2Proof/Laws/Ops.lean ====
section
/-! SUPPORT. One lemma per shared operation: everything it does, with the state after it written as one
record (a field the record does not name is unchanged). -/

namespace Sys2Proof.Machine

/-! ### Presenting and taking operation words -/

theorem takeWord_nil {s : State} (h : s.input = []) : takeWord s = none := by simp [takeWord, h]

theorem takeWord_cons {s : State} {w : OpWord} {rest : List OpWord} (h : s.input = w :: rest) :
    takeWord s = some (w, { s with input := rest }) := by simp [takeWord, h]

theorem takeWord_presentNext (w : OpWord) (s : State) : takeWord (presentNext w s) = some (w, s) := rfl

/-! ### Bytes of the images -/

/-- Reading sees only the image. -/
theorem readByte_congr {c : Configuration} {p : Proc} {s t : State} (h : image p s = image p t) (a : Nat) :
    readByte c p a s = readByte c p a t := by simp [readByte, h]

@[simp] theorem readByte_startOp (c : Configuration) (p : Proc) (a : Nat) (s : State) :
    readByte c p a (startOp s) = readByte c p a s := by cases p <;> rfl

@[simp] theorem readByte_emit (c : Configuration) (p : Proc) (a : Nat) (e : Event) (s : State) :
    readByte c p a (emit e s) = readByte c p a s := by cases p <;> rfl

/-- A store changes one image and nothing else. -/
theorem storeByte_frame (c : Configuration) (p : Proc) (a : Nat) (v : Byte) (s : State) :
    storeByte c p a v s = setImage p (image p (storeByte c p a v s)) s := by
  simp [storeByte]

theorem readStored_eq (c : Configuration) (p : Proc) (addr : BusAddr) (s : State) :
    readStored c p addr s =
      { s with result := .byte (readByte c p (maskAddr addr).toNat s), events := [] } := by
  cases p <;> rfl

/-- A RAM write: the byte, every other byte, and the frame. -/
theorem writeStored_spec {c : Configuration} {p : Proc} {s : State}
    (h : (image p s).wf (powerOnByte c p) = true) (addr : BusAddr) (v : Byte) :
    readByte c p (maskAddr addr).toNat (writeStored c p addr v s) = v ∧
    (∀ a, a ≠ (maskAddr addr).toNat → readByte c p a (writeStored c p addr v s) = readByte c p a s) ∧
    writeStored c p addr v s =
      { setImage p (image p (writeStored c p addr v s)) s with result := .nothing, events := [] } := by
  have h' : (image p (startOp s)).wf (powerOnByte c p) = true := by cases p <;> exact h
  refine ⟨readByte_storeByte_same h' _ v, fun a ha => ?_, ?_⟩
  · rw [writeStored, readByte_storeByte_other h' ha, readByte_startOp]
  · cases p <;> rfl

/-- A ROM write: as a RAM write, with its diagnostic. -/
theorem writeRom_spec {c : Configuration} {p : Proc} {s : State}
    (h : (image p s).wf (powerOnByte c p) = true) (addr : BusAddr) (v : Byte) :
    readByte c p (maskAddr addr).toNat (writeRom c p addr v s) = v ∧
    (∀ a, a ≠ (maskAddr addr).toNat → readByte c p a (writeRom c p addr v s) = readByte c p a s) ∧
    writeRom c p addr v s =
      { setImage p (image p (writeRom c p addr v s)) s with
          result := .nothing, events := [.diag (.romWrite p (maskAddr addr) v)] } := by
  have h' : (image p (emit (.diag (.romWrite p (maskAddr addr) v)) (startOp s))).wf (powerOnByte c p) = true := by
    cases p <;> exact h
  refine ⟨readByte_storeByte_same h' _ v, fun a ha => ?_, ?_⟩
  · rw [writeRom, readByte_storeByte_other h' ha, readByte_emit, readByte_startOp]
  · cases p <;> rfl

theorem readUnmapped_eq (c : Configuration) (p : Proc) (addr : BusAddr) (s : State) :
    readUnmapped c p addr s =
      { s with result := .byte c.unmappedReadValue, events := [.diag (.unmappedRead p (maskAddr addr))] } := rfl

theorem writeUnmapped_eq (p : Proc) (addr : BusAddr) (v : Byte) (s : State) :
    writeUnmapped p addr v s =
      { s with result := .nothing, events := [.diag (.unmappedWrite p (maskAddr addr) v)] } := rfl

/-- A tile write, by whether the byte changes. -/
theorem writeTile_cases (c : Configuration) (addr : BusAddr) (v : Byte) (s : State) :
    (readByte c .main (maskAddr addr).toNat s = v ∧ writeTile c addr v s = writeStored c .main addr v s) ∨
    (readByte c .main (maskAddr addr).toNat s ≠ v ∧
      writeTile c addr v s = { writeStored c .main addr v s with overlayDirty := true }) := by
  by_cases hv : readByte c .main (maskAddr addr).toNat s = v
  · exact .inl ⟨hv, by simp only [writeTile, if_pos hv]⟩
  · exact .inr ⟨hv, by simp only [writeTile, if_neg hv]⟩

/-- A palette write, by whether the byte changes. -/
theorem writePalette_cases (c : Configuration) (addr : BusAddr) (v : Byte) (s : State) :
    (readByte c .main (maskAddr addr).toNat s = v ∧ writePalette c addr v s = writeStored c .main addr v s) ∨
    (readByte c .main (maskAddr addr).toNat s ≠ v ∧
      writePalette c addr v s = { writeStored c .main addr v s with paletteDirty := true }) := by
  by_cases hv : readByte c .main (maskAddr addr).toNat s = v
  · exact .inl ⟨hv, by simp only [writePalette, if_pos hv]⟩
  · exact .inr ⟨hv, by simp only [writePalette, if_neg hv]⟩

/-! ### Interrupt lines -/

/-- Driving a line changes that line and the event list. -/
theorem driveLine_eq (l : Line) (b : Bool) (s : State) :
    driveLine l b s =
      { s with
        irqMainPeriodic := if l = .mainPeriodic then b else s.irqMainPeriodic
        irqAMbox := if l = .aMbox then b else s.irqAMbox
        irqASec := if l = .aSec then b else s.irqASec
        irqBMbox := if l = .bMbox then b else s.irqBMbox
        irqBSec := if l = .bSec then b else s.irqBSec
        events := s.events ++ [.irqLine l b] } := by cases l <;> rfl

/-- A pulse ends high whatever the level was, with both events. -/
theorem pulseLine_eq (l : Line) (s : State) :
    pulseLine l s =
      { s with
        irqMainPeriodic := if l = .mainPeriodic then true else s.irqMainPeriodic
        irqAMbox := if l = .aMbox then true else s.irqAMbox
        irqASec := if l = .aSec then true else s.irqASec
        irqBMbox := if l = .bMbox then true else s.irqBMbox
        irqBSec := if l = .bSec then true else s.irqBSec
        events := s.events ++ [.irqLine l false, .irqLine l true] } := by
  cases l <;> simp [pulseLine, driveLine_eq]

/-! ### Field tick -/

theorem tickPalette_eq (s : State) :
    tickPalette s =
      { s with
        paletteDirty := false
        overlayDirty := s.paletteDirty || s.overlayDirty
        events := s.events ++ if s.paletteDirty then [.paletteRecalc] else [] } := by
  by_cases h : s.paletteDirty = true
  · simp [tickPalette, emit, h]
  · have h' : s.paletteDirty = false := by simpa using h
    simp only [tickPalette, h', Bool.false_eq_true, if_false, Bool.false_or, List.append_nil]
    rw [← h']

theorem tickSigloss_eq (s : State) : tickSigloss s = { s with sigloss := s.sigloss - 1 } := rfl

theorem tickRedraw_eq (s : State) :
    tickRedraw s = { s with overlayDirty := false, events := s.events ++ [.overlayRedraw s.overlayDirty] } := rfl

theorem tickMainIrq_eq (s : State) :
    tickMainIrq s =
      { s with irqMainPeriodic := true,
               events := s.events ++ [.irqLine .mainPeriodic false, .irqLine .mainPeriodic true] } := by
  simp [tickMainIrq, pulseLine_eq]

/-- The two boundary conditions exclude each other. -/
theorem qualifies_not_reTick {f prev : Word16} (h : qualifies f prev = true) : reTick f prev = false := by
  simp only [qualifies, reTick, Bool.and_eq_true, bne_iff_ne] at h ⊢
  simp [h.1.2]

theorem streamFieldUpdate_eq (s : State) :
    streamFieldUpdate s =
      { s with
        baseOffset := if qualifies s.ldFrame s.prevFrame then some (packetBase (packetIndex s.ldFrame))
          else s.baseOffset
        position := if qualifies s.ldFrame s.prevFrame then 0 else s.position
        audioReady := if qualifies s.ldFrame s.prevFrame then true
          else if reTick s.ldFrame s.prevFrame then false else s.audioReady
        prevFrame := s.ldFrame } := by
  by_cases hq : qualifies s.ldFrame s.prevFrame = true
  · simp [streamFieldUpdate, hq]
  · by_cases hr : reTick s.ldFrame s.prevFrame = true
    · simp [streamFieldUpdate, hq, hr]
    · simp [streamFieldUpdate, hq, hr]

theorem tickCopIrq_eq (c : Configuration) (s : State) :
    tickCopIrq c s =
      { s with
        irqASec := if c.copATickEn then true else s.irqASec
        irqBSec := if s.bSecEn then true else s.irqBSec
        events := s.events ++ ((if c.copATickEn then [.irqLine .aSec false, .irqLine .aSec true] else []) ++
          if s.bSecEn then [.irqLine .bSec false, .irqLine .bSec true] else []) } := by
  by_cases ha : c.copATickEn = true <;> by_cases hb : s.bSecEn = true
  · simp [tickCopIrq, pulseLine_eq, ha, hb]
  · simp only [tickCopIrq, pulseLine_eq, if_pos ha, if_neg hb, List.append_nil, reduceCtorEq, if_false, if_true]
  · simp [tickCopIrq, pulseLine_eq, ha, hb]
  · simp only [tickCopIrq, if_neg ha, if_neg hb, List.append_nil]

/-! ### Stream engine -/

/-- The packet base of an index in the legal range, read as a number. -/
theorem packetBase_toNat {k : Nat} (h : k ≤ 1236) : (packetBase k).toNat = (k - 44) * 1024 + 1 := by
  simp only [packetBase, Config.firstPacketIndex, Config.packetLen, Config.baseSkew, BitVec.toNat_ofNat]
  omega

/-- A 16-bit frame number has packet index at most 1236. -/
theorem packetIndex_le (f : Word16) : packetIndex f ≤ 1236 := by
  have h : f.toNat < 2 ^ 16 := f.isLt
  simp only [packetIndex, Config.framesPerPacket]
  omega

/-- THRESHOLD_FRAME is the first frame of the first packet (R8). -/
theorem thresholdFrame_eq : Config.thresholdFrame = Config.framesPerPacket * Config.firstPacketIndex := rfl

/-- A frame is at or past the threshold exactly when its number is at least THRESHOLD_FRAME (R8, R171). -/
theorem pastThreshold_iff (f : Word16) : pastThreshold f = true ↔ Config.thresholdFrame ≤ f.toNat := by
  rw [pastThreshold, decide_eq_true_iff, packetIndex, Config.firstPacketIndex, Config.framesPerPacket,
    Config.thresholdFrame]
  omega

/-- The audio-mode read. -/
theorem readLddata_audio (c : Configuration) {s : State} (h : s.decoderSelect = true) :
    readLddata c s =
      { s with
        position := (s.position + 1) % 1024
        result := .byte (match streamIndex c s with | some k => c.table k | none => c.unmappedReadValue)
        events := match streamIndex c s with
          | some _ => []
          | none => [.diag (.streamRange s.baseOffset s.position)] } := by
  have hs : streamIndex c (startOp s) = streamIndex c s := rfl
  rw [readLddata, if_pos h, streamByte, hs]
  cases streamIndex c s <;> rfl

/-- The video-mode read. -/
theorem readLddata_video (c : Configuration) {s : State} (h : s.decoderSelect = false) :
    readLddata c s = { s with result := .byte (frameMidByte s.ldFrame), events := [] } := by
  rw [readLddata, if_neg (by simp [h])]; rfl

theorem writeLdcmd_eq (c : Configuration) (v : Byte) (s : State) :
    writeLdcmd c v s =
      { s with
        position := if pauseEdge c v s.prevCmd s.ldFrame then 0 else s.position
        audioReady := if pauseEdge c v s.prevCmd s.ldFrame then true else s.audioReady
        prevCmd := some v
        result := .nothing
        events := [.ldCommand (zext16 v)] } := by
  by_cases h : pauseEdge c v s.prevCmd s.ldFrame = true <;> simp [writeLdcmd, h, emit, startOp]

/-! ### Mailboxes -/

theorem sendToA_eq (v : Byte) (s : State) :
    sendToA v s =
      { s with fifoA := s.fifoA ++ [v], irqAMbox := true, events := s.events ++ [.irqLine .aMbox true] } := rfl

theorem sendToB_eq (v : Byte) (s : State) :
    sendToB v s =
      { s with fifoB := s.fifoB ++ [v], irqBMbox := true, events := s.events ++ [.irqLine .bMbox true] } := rfl

/-- An unbounded FIFO always has room. -/
theorem hasRoom_unbounded {c : Configuration} (h : c.fifoDepth = none) (q : List Byte) : hasRoom c q = true := by
  simp [hasRoom, h]

/-- A sound write with unbounded FIFOs. -/
theorem writeSound_unbounded {c : Configuration} (h : c.fifoDepth = none) (v : Byte) (s : State) :
    writeSound c v s =
      .next (if v = 0x00#8 then sendToA v (startOp s) else sendToB v (sendToA v (startOp s))) := by
  by_cases hv : v = 0x00#8 <;> simp [writeSound, hasRoom_unbounded h, hv]

theorem readMboxA_nil (c : Configuration) {s : State} (h : s.fifoA = []) :
    readMboxA c s = { s with result := .byte c.mboxEmptyValue, events := [.diag (.mboxEmpty .copA)] } := by
  simp [readMboxA, h, returnByte, emit, startOp]

theorem readMboxA_cons (c : Configuration) {s : State} {v : Byte} {rest : List Byte} (h : s.fifoA = v :: rest) :
    readMboxA c s = { s with fifoA := rest, result := .byte v, events := [] } := by
  simp [readMboxA, h, returnByte, startOp]

theorem readMboxB_nil (c : Configuration) {s : State} (h : s.fifoB = []) :
    readMboxB c s = { s with result := .byte c.mboxEmptyValue, events := [.diag (.mboxEmpty .copB)] } := by
  simp [readMboxB, h, returnByte, emit, startOp]

theorem readMboxB_cons (c : Configuration) {s : State} {v : Byte} {rest : List Byte} (h : s.fifoB = v :: rest) :
    readMboxB c s = { s with fifoB := rest, result := .byte v, events := [] } := by
  simp [readMboxB, h, returnByte, startOp]

/-! ### Control register and switches -/

theorem writeCtrl_eq (c : Configuration) (v : Byte) (s : State) :
    writeCtrl c v s =
      { s with
        ctrlLatch := v
        overlayDirty := s.overlayDirty || overlayEdge c s.ctrlLatch v || genlockEdge c s.ctrlLatch v
        transparency := if genlockEdge c s.ctrlLatch v then genlockBit c v else s.transparency
        result := .nothing
        events := if genlockEdge c s.ctrlLatch v then [.transparency (genlockBit c v)] else [] } := by
  by_cases ho : overlayEdge c s.ctrlLatch v = true <;> by_cases hg : genlockEdge c s.ctrlLatch v = true <;>
    simp [writeCtrl, toggleTransparency, forceOverlayRedraw, ho, hg, emit, startOp]

/-- One bit of a byte with one bit set. -/
theorem getLsbD_setBit (v : Byte) {j : Nat} (hj : j < 8) (b : Bool) (k : Nat) :
    (setBit v j b).getLsbD k = if k = j then b else v.getLsbD k := by
  have hone : (1#8 <<< j).getLsbD k = decide (k = j) := by
    simp only [BitVec.getLsbD_shiftLeft, BitVec.getLsbD_one]
    by_cases hk : k = j
    · subst hk; simp [hj]
    · by_cases hlt : k < j
      · simp [hlt, hk]
      · have : k - j ≠ 0 := by omega
        simp [hk, this]
  cases b
  · by_cases hk : k = j
    · subst hk
      simp [setBit, hj]
    · by_cases h8 : k < 8
      · simp only [setBit, Bool.false_eq_true, if_false, BitVec.getLsbD_and, BitVec.getLsbD_not, hone, hk, h8,
          decide_true, decide_false, Bool.not_false, Bool.and_true]
      · simp [setBit, BitVec.getLsbD_of_ge _ _ (Nat.le_of_not_lt h8), hk]
  · by_cases hk : k = j
    · subst hk
      simp only [setBit, if_true, BitVec.getLsbD_or, hone, decide_true, Bool.or_true]
    · simp only [setBit, if_true, BitVec.getLsbD_or, hone, hk, decide_false, Bool.or_false, if_false]

/-! ### Reset -/

theorem resetStream_eq (s : State) :
    resetStream s =
      { s with baseOffset := none, position := 0, audioReady := false, prevFrame := 0#16, prevCmd := none } := rfl

theorem resetAll_eq (c : Configuration) (s : State) :
    resetAll c s =
      { State.powerOn c with
        mem0 := s.mem0
        mem1 := s.mem1
        mem2 := s.mem2
        paletteDirty := c.freeBit s.freeCount
        overlayDirty := c.freeBit (s.freeCount + 1)
        ldFrame := s.ldFrame
        result := s.result
        events := s.events
        input := s.input
        freeCount := s.freeCount + 2 } := rfl

end Sys2Proof.Machine
end

