-- ==== Sys2Proof/Laws/PerInstr.lean ====
section
/-! SUPPORT. For every operation: the row of the opcode table that bears its mnemonic matches the word the
encoder writes for it (30_encoding.md R88, R89). One lemma per constructor. -/

namespace Sys2Proof.Laws.TableRow

/-- A well-formed operation's word is matched by the row of its mnemonic. -/
def Statement (i : Instr) : Prop :=
  i.wellFormed = true → ∃ r ∈ opTable, r.mnemonic = i.mnemonic ∧ rowMatches r (encode i) = true

/-- A read row with processor p's pattern matches p's read word wherever the row's ranges hold the masked
address. -/
theorem readRow (n : String) (p : Proc) (g : AddrRange) (rs : List AddrRange) (a : BusAddr)
    (h : (g :: rs).any (fun r => r.has (maskAddr a).toNat) = true) :
    rowMatches ⟨n, busWord p false 0#24 0#8, 0xFF000000FF#40, g :: rs, []⟩ (busWord p false a 0#8) = true := by
  simp only [rowMatches, busWord_and_readMask, maskedField_busWord, h, beq_self_eq_true, List.isEmpty_nil,
    Bool.or_true, Bool.true_or, Bool.and_self]

/-- The same for a write row. -/
theorem writeRow (n : String) (p : Proc) (g : AddrRange) (rs : List AddrRange) (a : BusAddr) (v : Byte)
    (h : (g :: rs).any (fun r => r.has (maskAddr a).toNat) = true) :
    rowMatches ⟨n, busWord p true 0#24 0#8, 0xFF00000000#40, g :: rs, []⟩ (busWord p true a v) = true := by
  simp only [rowMatches, busWord_and_writeMask, maskedField_busWord, h, beq_self_eq_true, List.isEmpty_nil,
    Bool.or_true, Bool.true_or, Bool.and_self]

/-- A row with no range and no pair matches a word that equals its pattern under its mask. -/
theorem plainRow (n : String) (pat mask w : OpWord) (h : w &&& mask = pat) :
    rowMatches ⟨n, pat, mask, [], []⟩ w = true := by
  simp only [rowMatches, h, beq_self_eq_true, List.isEmpty_nil, Bool.true_or, Bool.and_self]

theorem mrdLowram (addr : BusAddr) : Statement (.mrdLowram addr) :=
  fun h => ⟨⟨"MRD_LOWRAM", 0x0000000000, 0xFF000000FF, [⟨0x0000, 0x0FFF⟩], []⟩,
    by decide, rfl, readRow _ .main _ _ addr h⟩

theorem mrdSprite (addr : BusAddr) : Statement (.mrdSprite addr) :=
  fun h => ⟨⟨"MRD_SPRITE", 0x0000000000, 0xFF000000FF, [⟨0x3000, 0x37FF⟩], []⟩,
    by decide, rfl, readRow _ .main _ _ addr h⟩

theorem mrdTile (addr : BusAddr) : Statement (.mrdTile addr) :=
  fun h => ⟨⟨"MRD_TILE", 0x0000000000, 0xFF000000FF, [⟨0x3800, 0x4FFF⟩], []⟩,
    by decide, rfl, readRow _ .main _ _ addr h⟩

theorem mrdPalette (addr : BusAddr) : Statement (.mrdPalette addr) :=
  fun h => ⟨⟨"MRD_PALETTE", 0x0000000000, 0xFF000000FF, [⟨0x5000, 0x501F⟩], []⟩,
    by decide, rfl, readRow _ .main _ _ addr h⟩

theorem mrdDip (addr : BusAddr) : Statement (.mrdDip addr) :=
  fun h => ⟨⟨"MRD_DIP", 0x0000000000, 0xFF000000FF, [⟨0x5800, 0x5800⟩], []⟩,
    by decide, rfl, readRow _ .main _ _ addr h⟩

theorem mrdService (addr : BusAddr) : Statement (.mrdService addr) :=
  fun h => ⟨⟨"MRD_SERVICE", 0x0000000000, 0xFF000000FF, [⟨0x5801, 0x5801⟩], []⟩,
    by decide, rfl, readRow _ .main _ _ addr h⟩

theorem mrdLdframe (addr : BusAddr) : Statement (.mrdLdframe addr) :=
  fun h => ⟨⟨"MRD_LDFRAME", 0x0000000000, 0xFF000000FF, [⟨0x5805, 0x5805⟩], []⟩,
    by decide, rfl, readRow _ .main _ _ addr h⟩

theorem mrdLddata (addr : BusAddr) : Statement (.mrdLddata addr) :=
  fun h => ⟨⟨"MRD_LDDATA", 0x0000000000, 0xFF000000FF, [⟨0x5806, 0x5806⟩], []⟩,
    by decide, rfl, readRow _ .main _ _ addr h⟩

theorem mrdLdstatus (addr : BusAddr) : Statement (.mrdLdstatus addr) :=
  fun h => ⟨⟨"MRD_LDSTATUS", 0x0000000000, 0xFF000000FF, [⟨0x5807, 0x5807⟩], []⟩,
    by decide, rfl, readRow _ .main _ _ addr h⟩

theorem mrdUndef (addr : BusAddr) : Statement (.mrdUndef addr) :=
  fun h => ⟨⟨"MRD_UNDEF", 0x0000000000, 0xFF000000FF, [⟨0x5802, 0x5804⟩], []⟩,
    by decide, rfl, readRow _ .main _ _ addr h⟩

theorem mrdRom (addr : BusAddr) : Statement (.mrdRom addr) :=
  fun h => ⟨⟨"MRD_ROM", 0x0000000000, 0xFF000000FF, [⟨0x6000, 0xFFFF⟩], []⟩,
    by decide, rfl, readRow _ .main _ _ addr h⟩

theorem mrdUnmapped (addr : BusAddr) : Statement (.mrdUnmapped addr) :=
  fun h => ⟨⟨"MRD_UNMAPPED", 0x0000000000, 0xFF000000FF, [⟨0x1000, 0x2FFF⟩, ⟨0x5020, 0x57FF⟩, ⟨0x5808, 0x5FFF⟩], []⟩,
    by decide, rfl, readRow _ .main _ _ addr h⟩

theorem mwrLowram (addr : BusAddr) (v : Byte) : Statement (.mwrLowram addr v) :=
  fun h => ⟨⟨"MWR_LOWRAM", 0x0200000000, 0xFF00000000, [⟨0x0000, 0x0FFF⟩], []⟩,
    by decide, rfl, writeRow _ .main _ _ addr v h⟩

theorem mwrSprite (addr : BusAddr) (v : Byte) : Statement (.mwrSprite addr v) :=
  fun h => ⟨⟨"MWR_SPRITE", 0x0200000000, 0xFF00000000, [⟨0x3000, 0x37FF⟩], []⟩,
    by decide, rfl, writeRow _ .main _ _ addr v h⟩

theorem mwrTile (addr : BusAddr) (v : Byte) : Statement (.mwrTile addr v) :=
  fun h => ⟨⟨"MWR_TILE", 0x0200000000, 0xFF00000000, [⟨0x3800, 0x4FFF⟩], []⟩,
    by decide, rfl, writeRow _ .main _ _ addr v h⟩

theorem mwrPalette (addr : BusAddr) (v : Byte) : Statement (.mwrPalette addr v) :=
  fun h => ⟨⟨"MWR_PALETTE", 0x0200000000, 0xFF00000000, [⟨0x5000, 0x501F⟩], []⟩,
    by decide, rfl, writeRow _ .main _ _ addr v h⟩

theorem mwrSound (addr : BusAddr) (v : Byte) : Statement (.mwrSound addr v) :=
  fun h => ⟨⟨"MWR_SOUND", 0x0200000000, 0xFF00000000, [⟨0x5802, 0x5802⟩], []⟩,
    by decide, rfl, writeRow _ .main _ _ addr v h⟩

theorem mwrCtrl (addr : BusAddr) (v : Byte) : Statement (.mwrCtrl addr v) :=
  fun h => ⟨⟨"MWR_CTRL", 0x0200000000, 0xFF00000000, [⟨0x5803, 0x5803⟩], []⟩,
    by decide, rfl, writeRow _ .main _ _ addr v h⟩

theorem mwrLdcmd (addr : BusAddr) (v : Byte) : Statement (.mwrLdcmd addr v) :=
  fun h => ⟨⟨"MWR_LDCMD", 0x0200000000, 0xFF00000000, [⟨0x5805, 0x5805⟩], []⟩,
    by decide, rfl, writeRow _ .main _ _ addr v h⟩

theorem mwrLdsel (addr : BusAddr) (v : Byte) : Statement (.mwrLdsel addr v) :=
  fun h => ⟨⟨"MWR_LDSEL", 0x0200000000, 0xFF00000000, [⟨0x5806, 0x5806⟩], []⟩,
    by decide, rfl, writeRow _ .main _ _ addr v h⟩

theorem mwrUndef (addr : BusAddr) (v : Byte) : Statement (.mwrUndef addr v) :=
  fun h => ⟨⟨"MWR_UNDEF", 0x0200000000, 0xFF00000000, [⟨0x5800, 0x5801⟩, ⟨0x5804, 0x5804⟩, ⟨0x5807, 0x5807⟩], []⟩,
    by decide, rfl, writeRow _ .main _ _ addr v h⟩

theorem mwrRom (addr : BusAddr) (v : Byte) : Statement (.mwrRom addr v) :=
  fun h => ⟨⟨"MWR_ROM", 0x0200000000, 0xFF00000000, [⟨0x6000, 0xFFFF⟩], []⟩,
    by decide, rfl, writeRow _ .main _ _ addr v h⟩

theorem mwrUnmapped (addr : BusAddr) (v : Byte) : Statement (.mwrUnmapped addr v) :=
  fun h => ⟨⟨"MWR_UNMAPPED", 0x0200000000, 0xFF00000000, [⟨0x1000, 0x2FFF⟩, ⟨0x5020, 0x57FF⟩, ⟨0x5808, 0x5FFF⟩], []⟩,
    by decide, rfl, writeRow _ .main _ _ addr v h⟩

theorem ardRam (addr : BusAddr) : Statement (.ardRam addr) :=
  fun h => ⟨⟨"ARD_RAM", 0x0400000000, 0xFF000000FF, [⟨0x0000, 0x03FF⟩], []⟩,
    by decide, rfl, readRow _ .copA _ _ addr h⟩

theorem ardMbox (addr : BusAddr) : Statement (.ardMbox addr) :=
  fun h => ⟨⟨"ARD_MBOX", 0x0400000000, 0xFF000000FF, [⟨0x8000, 0x8000⟩], []⟩,
    by decide, rfl, readRow _ .copA _ _ addr h⟩

theorem ardRom (addr : BusAddr) : Statement (.ardRom addr) :=
  fun h => ⟨⟨"ARD_ROM", 0x0400000000, 0xFF000000FF, [⟨0xC000, 0xFFFF⟩], []⟩,
    by decide, rfl, readRow _ .copA _ _ addr h⟩

theorem ardUnmapped (addr : BusAddr) : Statement (.ardUnmapped addr) :=
  fun h => ⟨⟨"ARD_UNMAPPED", 0x0400000000, 0xFF000000FF, [⟨0x0400, 0x7FFF⟩, ⟨0x8001, 0xBFFF⟩], []⟩,
    by decide, rfl, readRow _ .copA _ _ addr h⟩

theorem awrRam (addr : BusAddr) (v : Byte) : Statement (.awrRam addr v) :=
  fun h => ⟨⟨"AWR_RAM", 0x0600000000, 0xFF00000000, [⟨0x0000, 0x03FF⟩], []⟩,
    by decide, rfl, writeRow _ .copA _ _ addr v h⟩

theorem awrUndef (addr : BusAddr) (v : Byte) : Statement (.awrUndef addr v) :=
  fun h => ⟨⟨"AWR_UNDEF", 0x0600000000, 0xFF00000000, [⟨0x8000, 0x8000⟩], []⟩,
    by decide, rfl, writeRow _ .copA _ _ addr v h⟩

theorem awrRom (addr : BusAddr) (v : Byte) : Statement (.awrRom addr v) :=
  fun h => ⟨⟨"AWR_ROM", 0x0600000000, 0xFF00000000, [⟨0xC000, 0xFFFF⟩], []⟩,
    by decide, rfl, writeRow _ .copA _ _ addr v h⟩

theorem awrUnmapped (addr : BusAddr) (v : Byte) : Statement (.awrUnmapped addr v) :=
  fun h => ⟨⟨"AWR_UNMAPPED", 0x0600000000, 0xFF00000000, [⟨0x0400, 0x7FFF⟩, ⟨0x8001, 0xBFFF⟩], []⟩,
    by decide, rfl, writeRow _ .copA _ _ addr v h⟩

theorem brdRam (addr : BusAddr) : Statement (.brdRam addr) :=
  fun h => ⟨⟨"BRD_RAM", 0x0800000000, 0xFF000000FF, [⟨0x0000, 0x03FF⟩], []⟩,
    by decide, rfl, readRow _ .copB _ _ addr h⟩

theorem brdUndef (addr : BusAddr) : Statement (.brdUndef addr) :=
  fun h => ⟨⟨"BRD_UNDEF", 0x0800000000, 0xFF000000FF, [⟨0x8000, 0x8000⟩], []⟩,
    by decide, rfl, readRow _ .copB _ _ addr h⟩

theorem brdMbox (addr : BusAddr) : Statement (.brdMbox addr) :=
  fun h => ⟨⟨"BRD_MBOX", 0x0800000000, 0xFF000000FF, [⟨0xA000, 0xA000⟩], []⟩,
    by decide, rfl, readRow _ .copB _ _ addr h⟩

theorem brdRom (addr : BusAddr) : Statement (.brdRom addr) :=
  fun h => ⟨⟨"BRD_ROM", 0x0800000000, 0xFF000000FF, [⟨0xC000, 0xFFFF⟩], []⟩,
    by decide, rfl, readRow _ .copB _ _ addr h⟩

theorem brdUnmapped (addr : BusAddr) : Statement (.brdUnmapped addr) :=
  fun h => ⟨⟨"BRD_UNMAPPED", 0x0800000000, 0xFF000000FF, [⟨0x0400, 0x7FFF⟩, ⟨0x8001, 0x9FFF⟩, ⟨0xA001, 0xBFFF⟩], []⟩,
    by decide, rfl, readRow _ .copB _ _ addr h⟩

theorem bwrRam (addr : BusAddr) (v : Byte) : Statement (.bwrRam addr v) :=
  fun h => ⟨⟨"BWR_RAM", 0x0A00000000, 0xFF00000000, [⟨0x0000, 0x03FF⟩], []⟩,
    by decide, rfl, writeRow _ .copB _ _ addr v h⟩

theorem bwrCtrl (addr : BusAddr) (v : Byte) : Statement (.bwrCtrl addr v) :=
  fun h => ⟨⟨"BWR_CTRL", 0x0A00000000, 0xFF00000000, [⟨0x8000, 0x8000⟩], []⟩,
    by decide, rfl, writeRow _ .copB _ _ addr v h⟩

theorem bwrUndef (addr : BusAddr) (v : Byte) : Statement (.bwrUndef addr v) :=
  fun h => ⟨⟨"BWR_UNDEF", 0x0A00000000, 0xFF00000000, [⟨0xA000, 0xA000⟩], []⟩,
    by decide, rfl, writeRow _ .copB _ _ addr v h⟩

theorem bwrRom (addr : BusAddr) (v : Byte) : Statement (.bwrRom addr v) :=
  fun h => ⟨⟨"BWR_ROM", 0x0A00000000, 0xFF00000000, [⟨0xC000, 0xFFFF⟩], []⟩,
    by decide, rfl, writeRow _ .copB _ _ addr v h⟩

theorem bwrUnmapped (addr : BusAddr) (v : Byte) : Statement (.bwrUnmapped addr v) :=
  fun h => ⟨⟨"BWR_UNMAPPED", 0x0A00000000, 0xFF00000000, [⟨0x0400, 0x7FFF⟩, ⟨0x8001, 0x9FFF⟩, ⟨0xA001, 0xBFFF⟩], []⟩,
    by decide, rfl, writeRow _ .copB _ _ addr v h⟩

theorem tick : Statement .tick :=
  fun _ => ⟨⟨"TICK", 0x1000000000, 0xFFFFFFFFFF, [], []⟩, by decide, rfl, by decide⟩

theorem reset : Statement .reset :=
  fun _ => ⟨⟨"RESET", 0x2000000000, 0xFFFFFFFFFF, [], []⟩, by decide, rfl, by decide⟩

theorem ldreset : Statement .ldreset :=
  fun _ => ⟨⟨"LDRESET", 0x2100000000, 0xFFFFFFFFFF, [], []⟩, by decide, rfl, by decide⟩

theorem dipset (bank : BitVec 24) (value : Byte) : Statement (.dipset bank value) :=
  fun _ => ⟨⟨"DIPSET", 0x2200000000, 0xFF00000000, [], []⟩, by decide, rfl,
    plainRow _ _ _ _ (envWord_and_headMask _ _ _)⟩

theorem svcset (value : Byte) : Statement (.svcset value) :=
  fun _ => ⟨⟨"SVCSET", 0x2300000000, 0xFFFFFFFF00, [], []⟩, by decide, rfl,
    plainRow _ _ _ _ (envWord_and_argMask _ _ _)⟩

theorem sigloss (n : BitVec 24) : Statement (.sigloss n) :=
  fun _ => ⟨⟨"SIGLOSS", 0x2400000000, 0xFF000000FF, [], []⟩, by decide, rfl,
    plainRow _ _ _ _ (envWord_and_valMask _ _ _)⟩

theorem irqack (line : Line) : Statement (.irqack line) :=
  fun _ => ⟨⟨"IRQACK", 0x2500000000, 0xFFFFFFF0FF, [], [(0, 0), (1, 0), (1, 1), (2, 0), (2, 1)]⟩, by decide, rfl,
    by cases line <;> decide⟩

theorem ldframe (f : Word16) : Statement (.ldframe f) :=
  fun _ => ⟨⟨"LDFRAME", 0x2600000000, 0xFFFF0000FF, [], []⟩, by decide, rfl,
    plainRow _ _ _ _ (frameWord_and_mask f)⟩

end Sys2Proof.Laws.TableRow
end

