-- ==== Sys2Proof/Tests/Slice0.lean ====
section
/-! SUPPORT. The model's own tests: the decoding of every constructor from words written out from the spec
(30_encoding.md R81 to R88, 95_test_vectors.md Part 2), one or two one-operation tests per operation with
the numbers of the spec's test vectors under its fixture CFG0 (00_scope.md R11), and for every statement
that has hypotheses a concrete state and operands that meet them (`witness_...`). -/

namespace Sys2Proof.Tests

open Sys2Proof Sys2Proof.Machine

/-- The reference configuration CFG0 of R11. -/
abbrev cfg0 : Configuration := Config.cfg0

/-- The start state S0 of 95_test_vectors.md. -/
def s0 : State := State.powerOn cfg0

/-- The state after an operation, or the state before it where it has no next state. -/
def after (i : Instr) (s : State) : State :=
  match exec i s with
  | .next t => t
  | _ => s

/-- S0 with frame f presented. -/
def atFrame (f : Nat) : State := { s0 with ldFrame := BitVec.ofNat 16 f }

/-! ### Well-formedness: one operand outside its mnemonic's ranges is refused -/

theorem test_illFormed_main_reads :
    (
    [.mrdLowram 0x001000#24, .mrdSprite 0x003800#24, .mrdTile 0x005000#24, .mrdPalette 0x005020#24,
     .mrdDip 0x005801#24, .mrdService 0x005800#24, .mrdLdframe 0x005806#24, .mrdLddata 0x005805#24,
     .mrdLdstatus 0x005808#24, .mrdUndef 0x005805#24, .mrdRom 0x005FFF#24, .mrdUnmapped 0x000FFF#24] : List Instr).all (fun i => !i.wellFormed) = true := by decide

theorem test_illFormed_main_writes :
    (
    [.mwrLowram 0x001000#24 0x5A#8, .mwrSprite 0x002FFF#24 0x5A#8, .mwrTile 0x0037FF#24 0x5A#8,
     .mwrPalette 0x004FFF#24 0x5A#8, .mwrSound 0x005803#24 0x5A#8, .mwrCtrl 0x005802#24 0x5A#8,
     .mwrLdcmd 0x005804#24 0x5A#8, .mwrLdsel 0x005805#24 0x5A#8, .mwrUndef 0x005806#24 0x5A#8,
     .mwrRom 0x015FFF#24 0x5A#8, .mwrUnmapped 0x005807#24 0x5A#8] : List Instr).all (fun i => !i.wellFormed) = true := by decide

theorem test_illFormed_copA :
    (
    [.ardRam 0x000400#24, .ardMbox 0x00A000#24, .ardRom 0x00BFFF#24, .ardUnmapped 0x008000#24,
     .awrRam 0xFF0400#24 0x5A#8, .awrUndef 0x008001#24 0x5A#8, .awrRom 0x00BFFF#24 0x5A#8,
     .awrUnmapped 0x00C000#24 0x5A#8] : List Instr).all (fun i => !i.wellFormed) = true := by decide

theorem test_illFormed_copB :
    (
    [.brdRam 0x000400#24, .brdUndef 0x00A000#24, .brdMbox 0x008000#24, .brdRom 0x00BFFF#24,
     .brdUnmapped 0x00A000#24, .bwrRam 0x000400#24 0x5A#8, .bwrCtrl 0x00A000#24 0x5A#8,
     .bwrUndef 0x008000#24 0x5A#8, .bwrRom 0x00BFFF#24 0x5A#8, .bwrUnmapped 0x008000#24 0x5A#8] : List Instr).all (fun i => !i.wellFormed) = true := by decide

/-! ### Decoding: one word for every constructor, written out from R81 to R88 -/

theorem test_decode_main_reads :
    decode 0x0000000000#40 = .ok (.mrdLowram 0x000000#24) ∧
    decode 0x000037FF00#40 = .ok (.mrdSprite 0x0037FF#24) ∧
    decode 0x00004FFF00#40 = .ok (.mrdTile 0x004FFF#24) ∧
    decode 0x0000500000#40 = .ok (.mrdPalette 0x005000#24) ∧
    decode 0x0000580000#40 = .ok (.mrdDip 0x005800#24) ∧
    decode 0x0000580100#40 = .ok (.mrdService 0x005801#24) ∧
    decode 0x0000580500#40 = .ok (.mrdLdframe 0x005805#24) ∧
    decode 0x0000580600#40 = .ok (.mrdLddata 0x005806#24) ∧
    decode 0x0001580700#40 = .ok (.mrdLdstatus 0x015807#24) ∧
    decode 0x0000580400#40 = .ok (.mrdUndef 0x005804#24) ∧
    decode 0x0001600000#40 = .ok (.mrdRom 0x016000#24) ∧
    decode 0x0000580800#40 = .ok (.mrdUnmapped 0x005808#24) := by
  decide

theorem test_decode_main_writes :
    decode 0x020201246B#40 = .ok (.mwrLowram 0x020124#24 0x6B#8) ∧
    decode 0x0200300003#40 = .ok (.mwrSprite 0x003000#24 0x03#8) ∧
    decode 0x0200380005#40 = .ok (.mwrTile 0x003800#24 0x05#8) ∧
    decode 0x0200501F08#40 = .ok (.mwrPalette 0x00501F#24 0x08#8) ∧
    decode 0x0200580241#40 = .ok (.mwrSound 0x005802#24 0x41#8) ∧
    decode 0x020058030C#40 = .ok (.mwrCtrl 0x005803#24 0x0C#8) ∧
    decode 0x02005805A5#40 = .ok (.mwrLdcmd 0x005805#24 0xA5#8) ∧
    decode 0x0200580601#40 = .ok (.mwrLdsel 0x005806#24 0x01#8) ∧
    decode 0x0200580733#40 = .ok (.mwrUndef 0x005807#24 0x33#8) ∧
    decode 0x0200FFFF0A#40 = .ok (.mwrRom 0x00FFFF#24 0x0A#8) ∧
    decode 0x027F200001#40 = .ok (.mwrUnmapped 0x7F2000#24 0x01#8) := by
  decide

theorem test_decode_copA :
    decode 0x040003FF00#40 = .ok (.ardRam 0x0003FF#24) ∧
    decode 0x0400800000#40 = .ok (.ardMbox 0x008000#24) ∧
    decode 0x0400C00000#40 = .ok (.ardRom 0x00C000#24) ∧
    decode 0x0400A00000#40 = .ok (.ardUnmapped 0x00A000#24) ∧
    decode 0x0601001033#40 = .ok (.awrRam 0x010010#24 0x33#8) ∧
    decode 0x0600800012#40 = .ok (.awrUndef 0x008000#24 0x12#8) ∧
    decode 0x0600C00000#40 = .ok (.awrRom 0x00C000#24 0x00#8) ∧
    decode 0x06007FFF5A#40 = .ok (.awrUnmapped 0x007FFF#24 0x5A#8) := by
  decide

theorem test_decode_copB :
    decode 0x0800020000#40 = .ok (.brdRam 0x000200#24) ∧
    decode 0x0800800000#40 = .ok (.brdUndef 0x008000#24) ∧
    decode 0x0801A00000#40 = .ok (.brdMbox 0x01A000#24) ∧
    decode 0x0800FFFC00#40 = .ok (.brdRom 0x00FFFC#24) ∧
    decode 0x0800BFFF00#40 = .ok (.brdUnmapped 0x00BFFF#24) ∧
    decode 0x0A00020001#40 = .ok (.bwrRam 0x000200#24 0x01#8) ∧
    decode 0x0A00800001#40 = .ok (.bwrCtrl 0x008000#24 0x01#8) ∧
    decode 0x0A00A00001#40 = .ok (.bwrUndef 0x00A000#24 0x01#8) ∧
    decode 0x0A00E0007F#40 = .ok (.bwrRom 0x00E000#24 0x7F#8) ∧
    decode 0x0A00BFFF5A#40 = .ok (.bwrUnmapped 0x00BFFF#24 0x5A#8) := by
  decide

theorem test_decode_environment :
    decode 0x1000000000#40 = .ok (.tick) ∧
    decode 0x2000000000#40 = .ok (.reset) ∧
    decode 0x2100000000#40 = .ok (.ldreset) ∧
    decode 0x22000001FF#40 = .ok (.dipset 0x000001#24 0xFF#8) ∧
    decode 0x2300000040#40 = .ok (.svcset 0x40#8) ∧
    decode 0x2400000300#40 = .ok (.sigloss 0x000003#24) ∧
    decode 0x2500000000#40 = .ok (.irqack .mainPeriodic) ∧
    decode 0x2500000400#40 = .ok (.irqack .aMbox) ∧
    decode 0x2500000500#40 = .ok (.irqack .aSec) ∧
    decode 0x2500000800#40 = .ok (.irqack .bMbox) ∧
    decode 0x2500000900#40 = .ok (.irqack .bSec) ∧
    decode 0x260008E700#40 = .ok (.ldframe 0x08E7#16) ∧
    decode 0x2600FFFF00#40 = .ok (.ldframe 0xFFFF#16) := by
  decide

/-- The reserved words of R91 and of the encoding vectors, each by the clause that refuses it. -/
theorem test_refused :
    decode 0x1000000001#40 = .error .tickBits ∧
    decode 0x2000000100#40 = .error .envField ∧
    decode 0x2100000001#40 = .error .envField ∧
    decode 0x2300000140#40 = .error .envField ∧
    decode 0x2400000301#40 = .error .envField ∧
    decode 0x2500000100#40 = .error .irqPair ∧
    decode 0x2500000C00#40 = .error .irqPair ∧
    decode 0x2500001000#40 = .error .envField ∧
    decode 0x2601000000#40 = .error .envField ∧
    decode 0x2700000000#40 = .error .sub ∧
    decode 0x3000000000#40 = .error .kind ∧
    decode 0x0C00000000#40 = .error .agent ∧
    decode 0x0E00000000#40 = .error .agent ∧
    decode 0x0100000000#40 = .error .busZeroBit ∧
    decode 0x0000580755#40 = .error .readData := by
  decide

theorem test_wellFormed_each :
    (
    [.mrdLowram 0x000000#24, .mrdSprite 0x0037FF#24, .mrdTile 0x004FFF#24, .mrdPalette 0x005000#24,
     .mrdDip 0x005800#24, .mrdService 0x005801#24, .mrdLdframe 0x005805#24, .mrdLddata 0x005806#24,
     .mrdLdstatus 0x015807#24, .mrdUndef 0x005804#24, .mrdRom 0x016000#24, .mrdUnmapped 0x005808#24,
     .mwrLowram 0x020124#24 0x5A#8, .mwrSprite 0x003000#24 0x5A#8, .mwrTile 0x003800#24 0x5A#8,
     .mwrPalette 0x00501F#24 0x5A#8, .mwrSound 0x005802#24 0x5A#8, .mwrCtrl 0x005803#24 0x5A#8,
     .mwrLdcmd 0x005805#24 0x5A#8, .mwrLdsel 0x005806#24 0x5A#8, .mwrUndef 0x005807#24 0x5A#8,
     .mwrRom 0x00FFFF#24 0x5A#8, .mwrUnmapped 0x7F2000#24 0x5A#8, .ardRam 0x0003FF#24, .ardMbox 0x008000#24,
     .ardRom 0x00C000#24, .ardUnmapped 0x00A000#24, .awrRam 0x010010#24 0x5A#8, .awrUndef 0x008000#24 0x5A#8,
     .awrRom 0x00C000#24 0x5A#8, .awrUnmapped 0x007FFF#24 0x5A#8, .brdRam 0x000200#24, .brdUndef 0x008000#24,
     .brdMbox 0x01A000#24, .brdRom 0x00FFFC#24, .brdUnmapped 0x00BFFF#24, .bwrRam 0x000200#24 0x5A#8,
     .bwrCtrl 0x008000#24 0x5A#8, .bwrUndef 0x00A000#24 0x5A#8, .bwrRom 0x00E000#24 0x5A#8,
     .bwrUnmapped 0x00BFFF#24 0x5A#8, .tick, .reset, .ldreset, .dipset 0#24 0#8, .svcset 0#8, .sigloss 0#24,
     .irqack .bSec, .ldframe 0#16] : List Instr).all (·.wellFormed) = true := by decide

/-! ### The fixture CFG0 (R11) and the constants of R8 -/

/-- R11: the values CFG0 sets, and the parameters of R9 it keeps at their defaults. -/
theorem test_cfg0 :
    (List.finRange 8).map (fun i => (cfg0.dipPerm i).val) = [7, 6, 5, 4, 3, 2, 1, 0] ∧
    [0, 255, 256, 1024, 4095].map cfg0.table = [0x00#8, 0xFF#8, 0x01#8, 0x04#8, 0x0E#8] ∧
    cfg0.tableLen = 4096 ∧ cfg0.pauseCmd = 0xA5#8 ∧
    cfg0.initMem .main 0x6000 = 0xEA#8 ∧ cfg0.initMem .copA 0xC000 = 0x4C#8 ∧
    cfg0.initMem .copB 0xC000 = 0x00#8 ∧ cfg0.busAddrW = 24 ∧ cfg0.rom = ⟨0x6000, 0xFFFF⟩ ∧
    cfg0.copATickEn = false := by decide

/-- R27: the range of packet indices the invariants speak of. -/
theorem test_packet_indices : Config.firstPacketIndex = 44 ∧ lastPacketIndex = 1236 := by decide

/-! ### Router, under CFG0 (96_test_vectors_families.md A1 to A7) -/

/-- A2: a byte written at 0x0123 is read back through a mirror. -/
theorem test_lowram_mirror :
    (readStored cfg0 .main 0xFF0123#24 (writeStored cfg0 .main 0x000123#24 0x5A#8 s0)).result = .byte 0x5A#8 := by
  decide

/-- A5: the three images are separate. -/
theorem test_images_separate :
    let s := writeStored cfg0 .copB 0x000010#24 0xCC#8
      (writeStored cfg0 .copA 0x000010#24 0xBB#8 (writeStored cfg0 .main 0x000010#24 0xAA#8 s0))
    (readStored cfg0 .main 0x000010#24 s).result = .byte 0xAA#8 ∧
    (readStored cfg0 .copA 0x000010#24 s).result = .byte 0xBB#8 ∧
    (readStored cfg0 .copB 0x000010#24 s).result = .byte 0xCC#8 := by decide

/-- A5: the loaded ROM bytes. -/
theorem test_rom_loaded :
    (readStored cfg0 .main 0x016000#24 s0).result = .byte 0xEA#8 ∧
    (readStored cfg0 .copA 0x00C000#24 s0).result = .byte 0x4C#8 := by decide

/-- A6: a ROM write is logged and sticks. -/
theorem test_rom_write :
    (writeRom cfg0 .copA 0x00C000#24 0x00#8 s0).events = [.diag (.romWrite .copA 0xC000#16 0x00#8)] ∧
    (readStored cfg0 .copA 0x00C000#24 (writeRom cfg0 .copA 0x00C000#24 0x00#8 s0)).result = .byte 0x00#8 := by
  decide

/-- Writing back the power-on byte removes the entry. -/
theorem test_memory_canonical :
    (writeRom cfg0 .main 0x006000#24 0xEA#8 (writeRom cfg0 .main 0x006000#24 0x09#8 s0)).mem0 = [] := by decide

/-- A3: only a tile write that changes the byte sets overlay_dirty. -/
theorem test_tile_change :
    (writeTile cfg0 0x004000#24 0x00#8 s0).overlayDirty = false ∧
    (writeTile cfg0 0x004000#24 0x41#8 s0).overlayDirty = true ∧
    (writeTile cfg0 0x004000#24 0x41#8 s0).paletteDirty = false := by decide

/-- A4: only a palette write that changes the byte sets palette_dirty. -/
theorem test_palette_change :
    (writePalette cfg0 0x005000#24 0x00#8 s0).paletteDirty = false ∧
    (writePalette cfg0 0x00501F#24 0x01#8 s0).paletteDirty = true ∧
    (writePalette cfg0 0x00501F#24 0x01#8 s0).overlayDirty = false := by decide

/-- S1a: an unmapped read returns the default with its diagnostic. -/
theorem test_unmapped_read :
    (readUnmapped cfg0 .copB 0x009FFF#24 s0).result = .byte 0x00#8 ∧
    (readUnmapped cfg0 .copB 0x009FFF#24 s0).events = [.diag (.unmappedRead .copB 0x9FFF#16)] := by decide

/-- A2: the diagnostic of an unmapped write records the masked address. -/
theorem test_unmapped_write :
    (after (.mwrUnmapped 0x7F2000#24 0x01#8) s0).events = [.diag (.unmappedWrite .main 0x2000#16 0x01#8)] := by
  decide

/-- Each stored write goes to its own processor's image. -/
theorem test_rom_write_processors :
    (after (.mwrRom 0x006000#24 0x09#8) s0).events = [.diag (.romWrite .main 0x6000#16 0x09#8)] ∧
    (after (.awrRom 0x00FFFF#24 0xAA#8) s0).events = [.diag (.romWrite .copA 0xFFFF#16 0xAA#8)] ∧
    (after (.bwrRom 0x00E000#24 0x7F#8) s0).events = [.diag (.romWrite .copB 0xE000#16 0x7F#8)] := by decide

/-- The undefined and unmapped operations of each processor name it. -/
theorem test_fallback_processors :
    (after (.mrdUndef 0x005804#24) s0).events = [.diag (.unmappedRead .main 0x5804#16)] ∧
    (after (.ardUnmapped 0x00A000#24) s0).events = [.diag (.unmappedRead .copA 0xA000#16)] ∧
    (after (.brdUndef 0x008000#24) s0).events = [.diag (.unmappedRead .copB 0x8000#16)] ∧
    (after (.awrUndef 0x008000#24 0x12#8) s0).events = [.diag (.unmappedWrite .copA 0x8000#16 0x12#8)] ∧
    (after (.bwrUndef 0x00A000#24 0x12#8) s0).events = [.diag (.unmappedWrite .copB 0xA000#16 0x12#8)] := by
  decide

/-! ### Scheduler (B1 to B6) -/

/-- B1: the plain tick. -/
theorem test_tick_plain :
    (tickAll cfg0 s0).events =
      [.overlayRedraw false, .irqLine .mainPeriodic false, .irqLine .mainPeriodic true] := by decide

/-- A4: a palette change gives the recomputation, then the redraw, in one tick. -/
theorem test_tick_palette :
    (tickAll cfg0 { s0 with paletteDirty := true }).events =
      [.paletteRecalc, .overlayRedraw true, .irqLine .mainPeriodic false, .irqLine .mainPeriodic true] ∧
    (tickAll cfg0 { s0 with paletteDirty := true }).overlayDirty = false := by decide

/-- B4: coprocessor B's secondary line pulses only when enabled; only bit 0 of the byte counts. -/
theorem test_secondary_enable :
    (tickAll cfg0 (writeCopBCtrl cfg0 0xFF#8 s0)).events.drop 3 = [.irqLine .bSec false, .irqLine .bSec true] ∧
    (tickAll cfg0 (writeCopBCtrl cfg0 0xFE#8 s0)).events.drop 3 = [] := by decide

/-- R156: with COP_A_TICK_EN true, A's pulse comes before B's. -/
theorem test_tick_copA :
    (tickAll { cfg0 with copATickEn := true } { s0 with bSecEn := true }).events.drop 3 =
      [.irqLine .aSec false, .irqLine .aSec true, .irqLine .bSec false, .irqLine .bSec true] := by decide

/-- B3: SIGLOSS replaces the count, and a tick counts it down to 0 and no further. -/
theorem test_sigloss :
    (after (.sigloss 1#24) { s0 with sigloss := 5 }).sigloss = 1 ∧
    (tickAll cfg0 { s0 with sigloss := 1 }).sigloss = 0 ∧ (tickAll cfg0 s0).sigloss = 0 := by decide

/-- B5: acknowledging clears one line; a line already 0 still gives the event. -/
theorem test_irqack :
    (after (.irqack .aMbox) { s0 with irqAMbox := true, irqBMbox := true }).irqAMbox = false ∧
    (after (.irqack .aMbox) { s0 with irqAMbox := true, irqBMbox := true }).irqBMbox = true ∧
    (after (.irqack .bSec) s0).events = [.irqLine .bSec false] := by decide

/-- B6: LDFRAME changes the latch and emits nothing. -/
theorem test_ldframe :
    (after (.ldframe 0x091C#16) s0).ldFrame = 0x091C#16 ∧ (after (.ldframe 0x091C#16) s0).prevFrame = 0#16 ∧
    (after (.ldframe 0x091C#16) s0).events = [] := by decide

/-! ### Stream engine (S2 to S4, T1 to T7) -/

/-- S3, S2: frames 2332, 2385 and 2438 load bases 1, 1025 and 2049, with the flag set and position 0. -/
theorem test_tick_loads :
    (tickAll cfg0 { atFrame 2332 with position := 5 }).baseOffset = some 1#32 ∧
    (tickAll cfg0 { atFrame 2332 with position := 5 }).position = 0 ∧
    (tickAll cfg0 (atFrame 2332)).audioReady = true ∧
    (tickAll cfg0 (atFrame 2385)).baseOffset = some 1025#32 ∧
    (tickAll cfg0 (atFrame 2438)).baseOffset = some 2049#32 := by decide

/-- T1, T2: lead-in and off-boundary frames load nothing; a re-tick clears the flag and keeps position. -/
theorem test_tick_other_frames :
    (tickAll cfg0 (atFrame 2279)).baseOffset = none ∧ (tickAll cfg0 (atFrame 2331)).baseOffset = none ∧
    (tickAll cfg0 { atFrame 2333 with audioReady := true }).audioReady = true ∧
    (tickAll cfg0 { atFrame 2332 with prevFrame := 2332#16, audioReady := true, position := 2 }).audioReady =
      false ∧
    (tickAll cfg0 { atFrame 2332 with prevFrame := 2332#16, audioReady := true, position := 2 }).position = 2 := by
  decide

/-- S2: the byte at base 1, and the wrap from position 1023 to 0 with TABLE[1024] = 0x04. -/
theorem test_lddata_audio :
    (readLddata cfg0 { s0 with decoderSelect := true, baseOffset := some 1#32 }).result = .byte 0x01#8 ∧
    (readLddata cfg0 { s0 with decoderSelect := true, baseOffset := some 1#32, position := 1023 }).result =
      .byte 0x04#8 ∧
    (readLddata cfg0 { s0 with decoderSelect := true, baseOffset := some 1#32, position := 1023 }).position = 0 := by
  decide

/-- T4, T6: video digits of frame 2332; past the table, the default with diagnostic 5, and the advance. -/
theorem test_lddata_video_and_range :
    (readLddata cfg0 (atFrame 2332)).result = .byte 0x23#8 ∧ (readLddata cfg0 (atFrame 2332)).position = 0 ∧
    (readLddata cfg0 { s0 with decoderSelect := true, baseOffset := some 3073#32, position := 1023 }).events =
      [.diag (.streamRange (some 3073#32) 1023)] ∧
    (readLddata cfg0 { s0 with decoderSelect := true, baseOffset := some 3073#32, position := 1022 }).result =
      .byte 0x0E#8 := by decide

/-- T4: bit 0 selects the decoder. -/
theorem test_ldsel :
    (writeLdsel cfg0 0xFF#8 s0).decoderSelect = true ∧
    (writeLdsel cfg0 0xFE#8 { s0 with decoderSelect := true }).decoderSelect = false := by decide

/-- S4: the pause edge rewinds and sets the flag; its repeat and a pause below the threshold do not. -/
theorem test_ldcmd :
    (writeLdcmd cfg0 0xA5#8 { atFrame 2400 with position := 37 }).position = 0 ∧
    (writeLdcmd cfg0 0xA5#8 { atFrame 2400 with position := 37 }).audioReady = true ∧
    (writeLdcmd cfg0 0xA5#8 { atFrame 2400 with position := 37, prevCmd := some 0xA5#8 }).position = 37 ∧
    (writeLdcmd cfg0 0xA5#8 { atFrame 2000 with position := 37 }).position = 37 ∧
    (writeLdcmd cfg0 0x10#8 { atFrame 2400 with position := 37 }).events = [.ldCommand 0x0010#16] := by decide

/-- T7: LDRESET leaves the decoder select and the FIFOs. -/
theorem test_ldreset :
    (after .ldreset { s0 with prevFrame := 2332#16, decoderSelect := true, fifoA := [0x41#8] }).prevFrame = 0#16 ∧
    (after .ldreset { s0 with prevCmd := some 0xA5#8 }).prevCmd = none ∧
    (after .ldreset { s0 with decoderSelect := true, fifoA := [0x41#8] }).fifoA = [0x41#8] ∧
    (after .ldreset { s0 with decoderSelect := true }).decoderSelect = true := by decide

/-! ### Mailbox (S6, M1, M2) -/

/-- S6: a non-zero byte goes to both, a zero byte to A alone. -/
theorem test_sound :
    (after (.mwrSound 0x005802#24 0x41#8) s0).events = [.irqLine .aMbox true, .irqLine .bMbox true] ∧
    (after (.mwrSound 0x005802#24 0x41#8) s0).fifoB = [0x41#8] ∧
    (after (.mwrSound 0x005802#24 0x00#8) s0).events = [.irqLine .aMbox true] ∧
    (after (.mwrSound 0x005802#24 0x00#8) s0).fifoA = [0x00#8] ∧
    (after (.mwrSound 0x005802#24 0x00#8) s0).fifoB = [] := by decide

/-- S6: a read takes the front byte and leaves the line; an empty one gives the default and diagnostic 4. -/
theorem test_mailbox_reads :
    (readMboxA cfg0 { s0 with fifoA := [0x41#8, 0x00#8], irqAMbox := true }).result = .byte 0x41#8 ∧
    (readMboxA cfg0 { s0 with fifoA := [0x41#8, 0x00#8], irqAMbox := true }).fifoA = [0x00#8] ∧
    (readMboxA cfg0 { s0 with fifoA := [0x41#8, 0x00#8], irqAMbox := true }).irqAMbox = true ∧
    (readMboxB cfg0 s0).events = [.diag (.mboxEmpty .copB)] ∧ (readMboxB cfg0 s0).result = .byte 0x00#8 := by
  decide

/-! ### Status and control (the frame table, C1, C2, S5) -/

/-- Rows of the frame table: status byte. -/
theorem test_ldstatus :
    statusByte 0#16 0 false = 0x90#8 ∧ statusByte 2331#16 0 false = 0xB0#8 ∧
    statusByte 2332#16 0 false = 0x30#8 ∧ statusByte 2332#16 1 false = 0x90#8 ∧
    statusByte 12345#16 7 false = 0x91#8 ∧ statusByte 65535#16 0 false = 0x36#8 ∧
    statusByte 2332#16 0 true = 0x38#8 := by decide

/-- Rows of the frame table: the two digit bytes. -/
theorem test_frame_digits :
    frameMidByte 12345#16 = 0x23#8 ∧ frameLowByte 12345#16 = 0x45#8 ∧ frameMidByte 40960#16 = 0x09#8 ∧
    frameLowByte 40960#16 = 0x60#8 ∧
    (after (.mrdLdframe 0x005805#24) (atFrame 2332)).result = .byte 0x32#8 := by decide

/-- C1: 0x00 to 0x0C raises both effects; 0x04 to 0xF4 none; 0xF4 to 0xF0 the redraw alone. -/
theorem test_ctrl :
    (writeCtrl cfg0 0x0C#8 s0).events = [.transparency true] ∧ (writeCtrl cfg0 0x0C#8 s0).overlayDirty = true ∧
    (writeCtrl cfg0 0xF4#8 { s0 with ctrlLatch := 0x04#8 }).overlayDirty = false ∧
    (writeCtrl cfg0 0xF0#8 { s0 with ctrlLatch := 0xF4#8 }).overlayDirty = true ∧
    (writeCtrl cfg0 0xF0#8 { s0 with ctrlLatch := 0xF4#8 }).events = [] := by decide

/-- S5: samples of the permutation, here the bit reversal. -/
theorem test_dipset :
    (setDip cfg0 0#24 0x01#8 s0).dipSw = 0x80#8 ∧ (setDip cfg0 0#24 0xB2#8 s0).dipSw = 0x4D#8 ∧
    (setDip cfg0 0#24 0xFE#8 { s0 with dipSw := 0xFF#8 }).dipSw = 0x7F#8 ∧
    (setDip cfg0 1#24 0xFF#8 s0).dipSw = 0x00#8 ∧ (setDip cfg0 1#24 0xFF#8 s0).result = .flag false := by decide

/-- C2: the two switch reads and SVCSET. -/
theorem test_switches :
    (after (.mrdDip 0x015800#24) { s0 with dipSw := 0xFF#8 }).result = .byte 0xFF#8 ∧
    (after (.mrdService 0x005801#24) (after (.svcset 0x40#8) s0)).result = .byte 0x40#8 := by decide

/-! ### Reset (Z1) -/

/-- Z1: RESET keeps the frame and the images, clears the FIFOs and the lines, and emits nothing. -/
theorem test_reset :
    (resetAll cfg0 (writeStored cfg0 .main 0x000123#24 0x5A#8 (atFrame 2332))).ldFrame = 2332#16 ∧
    (resetAll cfg0 (writeStored cfg0 .main 0x000123#24 0x5A#8 s0)).mem0 = [(0x0123, 0x5A#8)] ∧
    (resetAll cfg0 { s0 with fifoA := [0x41#8], irqAMbox := true, dipSw := 0x80#8 }).fifoA = [] ∧
    (resetAll cfg0 { s0 with fifoA := [0x41#8], irqAMbox := true, dipSw := 0x80#8 }).irqAMbox = false ∧
    (resetAll cfg0 { s0 with fifoA := [0x41#8], irqAMbox := true, dipSw := 0x80#8 }).dipSw = 0x00#8 := by decide

/-- A step performs the presented operation and takes it from the queue. -/
theorem test_step_runs_presented :
    step ((atFrame 7).withFetchWord 40 0x2600091C00) = exec (.ldframe 0x091C#16) (atFrame 7) := by rfl

/-! ### Witnesses: for every statement with hypotheses, values that meet them -/

/-- DecodeOfEncodeIsTheOperation: first and last address of a region, and a mirror. -/
theorem witness_DecodeOfEncode :
    (Instr.mrdTile 0x003800#24).wellFormed = true ∧ (Instr.mrdTile 0x004FFF#24).wellFormed = true ∧
    (Instr.brdUnmapped 0xFFA001#24).wellFormed = true ∧ (Instr.ldframe 0xFFFF#16).wellFormed = true := by decide

theorem witness_EncodeOfDecode : decode 0x2600FFFF00#40 = .ok (.ldframe 0xFFFF#16) := by decide

theorem witness_OpcodeTableRows :
    ∃ r ∈ opTable, rowMatches r 0x0001580700#40 = true ∧ r.mnemonic = "MRD_LDSTATUS" := by decide

/-- StepRunsTheDecodedOperation: nothing presented; a word that decodes; a reserved word. -/
theorem witness_StepRunsTheDecodedOperation :
    State.reset.input = [] ∧ (State.reset.withFetchWord 40 0x1000000000).input = [0x1000000000#40] ∧
    decode 0x1000000000#40 = .ok .tick ∧ decode 0x3000000000#40 = .error .kind :=
  ⟨rfl, rfl, by decide, by decide⟩

theorem witness_MirroredAddresses : (0x015807#24).toNat % 65536 = (0xFF5807#24).toNat % 65536 := by decide

/-- EveryOperationCompletesWithItsResult: one operation for each clause. -/
theorem witness_EveryOperationCompletes :
    (Instr.ardMbox 0x008000#24).isBusRead = true ∧ (Instr.tick).isBusRead = false ∧
    (∀ bank value, Instr.tick ≠ .dipset bank value) :=
  ⟨rfl, rfl, fun _ _ h => nomatch h⟩

/-- OneDiagnosticAndNeverWithALine, LinesMoveOnlyByTheirOwnSources and the frames: operations that complete. -/
theorem witness_execCompletes :
    exec (.mrdUnmapped 0x001000#24) State.reset =
      .next (readUnmapped Config.machine .main 0x001000#24 State.reset) ∧
    exec .tick State.reset = .next (tickAll Config.machine State.reset) := ⟨rfl, rfl⟩

/-- OnlyItsOwnProcessorWritesAnImage: a write that changes coprocessor A's image. -/
theorem witness_OnlyItsOwnProcessorWritesAnImage :
    ∃ v t, exec (.awrRam 0x000000#24 v) State.reset = .next t ∧ image .copA t ≠ image .copA State.reset := by
  refine ⟨powerOnByte Config.machine .copA 0 + 1#8, _, rfl, ?_⟩
  have hne : powerOnByte Config.machine .copA 0 + 1#8 ≠ powerOnByte Config.machine .copA 0 := by bv_omega
  have himg : image .copA (writeStored Config.machine .copA 0x000000#24
      (powerOnByte Config.machine .copA 0 + 1#8) State.reset) =
      memWrite (powerOnByte Config.machine .copA) [] 0 (powerOnByte Config.machine .copA 0 + 1#8) := rfl
  rw [himg, memWrite, if_neg hne]
  exact List.cons_ne_nil _ _

/-- AgentsWriteOnlyWhatTheMatrixAllows: an operation of each agent. -/
theorem witness_AgentsWriteOnlyWhatTheMatrixAllows :
    (Instr.mwrSound 0x005802#24 0x41#8).agent = .proc .main ∧ (Instr.ardMbox 0x008000#24).agent = .proc .copA ∧
    (Instr.bwrCtrl 0x008000#24 0x01#8).agent = .proc .copB ∧ Instr.tick.agent = .tickSource ∧
    Instr.ldreset.agent = .peripheral ∧ (Instr.svcset 0#8).agent = .host ∧ Instr.svcset 0#8 ≠ .reset ∧
    (Instr.irqack .bSec).agent = .collaborator := by decide

/-- CoprocessorsSeeOnlyTheirOwnState: two different states that agree on what each coprocessor sees. -/
theorem witness_CoprocessorsSeeOnlyTheirOwnState :
    s0 ≠ { s0 with ldFrame := 2332#16 } ∧ s0.mem1 = { s0 with ldFrame := 2332#16 }.mem1 ∧
    s0.fifoA = { s0 with ldFrame := 2332#16 }.fifoA ∧ s0.mem2 = { s0 with ldFrame := 2332#16 }.mem2 ∧
    s0.fifoB = { s0 with ldFrame := 2332#16 }.fifoB ∧ (Instr.ardMbox 0x008000#24).agent = .proc .copA ∧
    (Instr.brdMbox 0x00A000#24).agent = .proc .copB ∧
    (∃ t, exec (.ardMbox 0x008000#24) s0 = .next t) ∧
    (∃ t, exec (.ardMbox 0x008000#24) { s0 with ldFrame := 2332#16 } = .next t) ∧
    (∃ t, exec (.brdMbox 0x00A000#24) s0 = .next t) ∧
    (∃ t, exec (.brdMbox 0x00A000#24) { s0 with ldFrame := 2332#16 } = .next t) :=
  ⟨by decide, rfl, rfl, rfl, rfl, rfl, rfl, ⟨_, rfl⟩, ⟨_, rfl⟩, ⟨_, rfl⟩, ⟨_, rfl⟩⟩

/-- LinesMoveOnlyByTheirOwnSources: a fall, and a rise of each line that can rise in this configuration. -/
theorem witness_LinesMove :
    (∃ t, exec (.irqack .aSec) { s0 with irqASec := true } = .next t ∧ lineLevel .aSec t = false) ∧
    (∃ t, exec .reset { s0 with irqBMbox := true } = .next t ∧ lineLevel .bMbox t = false) ∧
    (∃ t, exec .tick s0 = .next t ∧ lineLevel .mainPeriodic t = true) ∧
    (∃ t, exec .tick { s0 with bSecEn := true } = .next t ∧ lineLevel .bSec t = true) ∧
    (∃ t, exec (.mwrSound 0x005802#24 0x00#8) s0 = .next t ∧ lineLevel .aMbox t = true) ∧
    ∃ t, exec (.mwrSound 0x005802#24 0xFF#8) s0 = .next t ∧ lineLevel .bMbox t = true :=
  ⟨⟨_, rfl, rfl⟩, ⟨_, rfl, rfl⟩, ⟨_, rfl, rfl⟩, ⟨_, rfl, rfl⟩, ⟨_, rfl, rfl⟩, ⟨_, rfl, rfl⟩⟩

/-- AudioReadyChangesOnlyAsListed: each way of setting and of clearing the flag. -/
theorem witness_AudioReadyChanges :
    (∃ t, exec .tick (atFrame 2332) = .next t ∧ t.audioReady = true) ∧
    (∃ t, exec (.mwrLdcmd 0x005805#24 Config.machine.pauseCmd) (atFrame 2332) = .next t ∧ t.audioReady = true) ∧
    (∃ t, exec .tick { s0 with audioReady := true } = .next t ∧ t.audioReady = false) ∧
    (∃ t, exec .ldreset { s0 with audioReady := true } = .next t ∧ t.audioReady = false) ∧
    (∃ t, exec .reset { s0 with audioReady := true } = .next t ∧ t.audioReady = false) := by
  refine ⟨⟨_, rfl, by decide⟩, ⟨_, rfl, ?_⟩, ⟨_, rfl, by decide⟩, ⟨_, rfl, rfl⟩, ⟨_, rfl, rfl⟩⟩
  have hedge : pauseEdge Config.machine Config.machine.pauseCmd (atFrame 2332).prevCmd (atFrame 2332).ldFrame =
      true := by
    have hp : pastThreshold (atFrame 2332).ldFrame = true := by decide
    have hn : (atFrame 2332).prevCmd = none := rfl
    simp [pauseEdge, hp, hn]
  rw [writeLdcmd_eq, hedge]
  rfl

/-- BaseOffsetChangesOnlyAsListed: a load and two unloads. -/
theorem witness_BaseOffsetChanges :
    (∃ t, exec .tick (atFrame 2332) = .next t ∧ t.baseOffset ≠ (atFrame 2332).baseOffset) ∧
    (∃ t, exec .ldreset { s0 with baseOffset := some 1#32 } = .next t ∧ t.baseOffset = none) ∧
    (∃ t, exec .reset { s0 with baseOffset := some 1#32 } = .next t ∧ t.baseOffset = none) :=
  ⟨⟨_, rfl, by decide⟩, ⟨_, rfl, rfl⟩, ⟨_, rfl, rfl⟩⟩

/-- EveryStepKeepsTheInvariants: a state that meets them, with an operation presented, and its step. -/
theorem witness_EveryStepKeepsTheInvariants :
    Inv Config.machine (State.reset.withFetchWord 40 0x1000000000) ∧
    ∃ t, step (State.reset.withFetchWord 40 0x1000000000) = .next t := by
  refine ⟨⟨fun p => by cases p <;> rfl, by decide, ?_, ?_, ?_⟩, _, rfl⟩
  · rfl
  · intro x hx
    exact nomatch hx
  · intro v hv
    exact nomatch hv

/-- The router statements: the first and last address of every region and every register's address, and
images in canonical form. -/
theorem witness_regions :
    [0x000000#24, 0x000FFF#24, 0xFF0FFF#24].all (fun a => Config.machine.lowRam.has (maskAddr a).toNat) = true ∧
    [0x003000#24, 0x0037FF#24].all (fun a => Config.machine.sprite.has (maskAddr a).toNat) = true ∧
    [0x003800#24, 0x004FFF#24].all (fun a => Config.machine.tile.has (maskAddr a).toNat) = true ∧
    [0x005000#24, 0x00501F#24].all (fun a => Config.machine.palette.has (maskAddr a).toNat) = true ∧
    [0x006000#24, 0x00FFFF#24].all (fun a => Config.machine.rom.has (maskAddr a).toNat) = true ∧
    [0x000000#24, 0x0003FF#24].all (fun a => Config.machine.copRam.has (maskAddr a).toNat) = true ∧
    [0x00C000#24, 0x00FFFF#24].all (fun a => Config.machine.copRom.has (maskAddr a).toNat) = true ∧
    ∀ p, (image p State.reset).wf (powerOnByte Config.machine p) = true :=
  ⟨by decide, by decide, by decide, by decide, by decide, by decide, by decide,
    fun p => by cases p <;> rfl⟩

theorem witness_registers :
    (maskAddr 0x005800#24).toNat = Config.machine.regDip ∧
    (maskAddr 0x005801#24).toNat = Config.machine.regService ∧
    (maskAddr 0x005802#24).toNat = Config.machine.regSound ∧
    (maskAddr 0x005803#24).toNat = Config.machine.regCtrl ∧
    (maskAddr 0x005805#24).toNat = Config.machine.regLdFrame ∧
    (maskAddr 0x005805#24).toNat = Config.machine.regLdCmd ∧
    (maskAddr 0x005806#24).toNat = Config.machine.regLdData ∧
    (maskAddr 0x005806#24).toNat = Config.machine.regLdSel ∧
    (maskAddr 0x015807#24).toNat = Config.machine.regLdStatus ∧
    (maskAddr 0x008000#24).toNat = Config.machine.copAMbox ∧
    (maskAddr 0x00A000#24).toNat = Config.machine.copBMbox ∧
    (maskAddr 0xFF8000#24).toNat = Config.machine.copBCtrl := by decide

/-- WritesThatChangeNothingHaveNoSideEffect: a control write that keeps bits 2 and 3. -/
theorem witness_WritesThatChangeNothing :
    (image .main State.reset).wf (powerOnByte Config.machine .main) = true ∧
    (0xF4#8).getLsbD 2 = { s0 with ctrlLatch := 0x04#8 }.ctrlLatch.getLsbD 2 ∧
    (0xF4#8).getLsbD 3 = { s0 with ctrlLatch := 0x04#8 }.ctrlLatch.getLsbD 3 := ⟨rfl, rfl, rfl⟩

/-- UnmappedReadsReturnTheStableDefault and UnmappedWritesAreDiscarded: every clause at the ends of its
ranges; the address of each undefined coprocessor register is in `witness_registers`. -/
theorem witness_UnmappedAddresses :
    [0x5802, 0x5803, 0x5804].all (fun m => decide ((0x5800 ≤ m ∧ m ≤ 0x5807) ∧
      m ∉ [Config.machine.regDip, Config.machine.regService, Config.machine.regLdFrame,
        Config.machine.regLdData, Config.machine.regLdStatus])) = true ∧
    [0x5800, 0x5801, 0x5804, 0x5807].all (fun m => decide ((0x5800 ≤ m ∧ m ≤ 0x5807) ∧
      m ∉ [Config.machine.regSound, Config.machine.regCtrl, Config.machine.regLdCmd,
        Config.machine.regLdSel])) = true ∧
    [0x1000, 0x2FFF, 0x5020, 0x57FF, 0x5808, 0x5FFF].all (fun m => !decide (0x5800 ≤ m ∧ m ≤ 0x5807) &&
      !(Config.machine.lowRam.has m || Config.machine.sprite.has m || Config.machine.tile.has m ||
        Config.machine.palette.has m || Config.machine.rom.has m)) = true ∧
    [0x0400, 0x7FFF, 0x8001, 0xBFFF].all (fun m => !Config.machine.copRam.has m && !Config.machine.copRom.has m &&
      m != Config.machine.copAMbox) = true ∧
    [0x0400, 0x9FFF, 0xA001, 0xBFFF].all (fun m => !Config.machine.copRam.has m && !Config.machine.copRom.has m &&
      m != Config.machine.copBMbox && m != Config.machine.copBCtrl) = true := by decide

/-- QuietReadsAreRepeatable: both disjuncts. -/
theorem witness_QuietReads :
    Instr.brdRom 0x00C000#24 ∈ [Instr.mrdLowram 0x00C000#24, .mrdSprite 0x00C000#24, .mrdTile 0x00C000#24,
      .mrdPalette 0x00C000#24, .mrdRom 0x00C000#24, .mrdDip 0x00C000#24, .mrdService 0x00C000#24,
      .mrdLdframe 0x00C000#24, .mrdLdstatus 0x00C000#24, .ardRam 0x00C000#24, .ardRom 0x00C000#24,
      .brdRam 0x00C000#24, .brdRom 0x00C000#24] ∧ s0.decoderSelect = false := by decide

/-- QualifyingTickLoadsThePacket and LdresetResetsTheStreamAlone: the first and the last boundary. -/
theorem witness_QualifyingTick :
    [2332, 65508].all (fun f => decide ((atFrame f).ldFrame.toNat % 53 = 0 ∧
      (atFrame f).ldFrame ≠ (atFrame f).prevFrame ∧ 44 ≤ (atFrame f).ldFrame.toNat / 53)) = true := by decide

/-- SameFrameTickClearsTheReadyFlag: at frame 0, and past the threshold. -/
theorem witness_SameFrameTick :
    (s0.ldFrame.toNat % 53 = 0 ∧ s0.ldFrame = s0.prevFrame) ∧
    { atFrame 2332 with prevFrame := 2332#16 }.ldFrame.toNat % 53 = 0 ∧
    { atFrame 2332 with prevFrame := 2332#16 }.ldFrame = { atFrame 2332 with prevFrame := 2332#16 }.prevFrame := by
  decide

/-- OtherTicksChangeOnlyPrevFrame: off a boundary, and the last lead-in boundary. -/
theorem witness_OtherTicks :
    (atFrame 2333).ldFrame.toNat % 53 ≠ 0 ∧ (atFrame 2279).ldFrame.toNat % 53 = 0 ∧
    (atFrame 2279).ldFrame ≠ (atFrame 2279).prevFrame ∧ (atFrame 2279).ldFrame.toNat / 53 < 44 := by decide

/-- SecondaryEnableIsWrittenOnlyByB: an operation that changes the enable. -/
theorem witness_SecondaryEnable :
    ∃ t, exec (.bwrCtrl 0x008000#24 0x01#8) s0 = .next t ∧ t.bSecEn ≠ s0.bSecEn := ⟨_, rfl, by decide⟩

/-- CursorCyclesThroughThePacket: audio mode with a packet loaded. -/
theorem witness_Cursor :
    { s0 with decoderSelect := true, baseOffset := some 1#32 }.decoderSelect = true ∧
    { s0 with decoderSelect := true, baseOffset := some 1#32 }.baseOffset = some 1#32 ∧
    { s0 with decoderSelect := true, baseOffset := some 1#32 }.position = 0 := ⟨rfl, rfl, rfl⟩

/-- MailboxesKeepOrderAndLoseNothing: a run without RESET that completes. -/
theorem witness_MailboxesKeepOrder :
    Instr.reset ∉ [Instr.mwrSound 0x005802#24 0x41#8, .ardMbox 0x008000#24, .brdMbox 0x00A000#24] ∧
    ∃ t rs, runOps [.mwrSound 0x005802#24 0x41#8, .ardMbox 0x008000#24, .brdMbox 0x00A000#24] s0 = some (t, rs) :=
  ⟨by decide, _, _, rfl⟩

theorem witness_MailboxArbitration : s0.fifoA = [] := rfl

/-- FiniteFifoOverflowIsRefused: depth 1, each clause. -/
theorem witness_FiniteFifo :
    { cfg0 with fifoDepth := some 1 }.fifoDepth = some 1 ∧ 1 ≤ { s0 with fifoA := [0x41#8] }.fifoA.length ∧
    ({ s0 with fifoB := [0x41#8] }.fifoA.length < 1 ∧ (0x42#8 : Byte) ≠ 0x00#8 ∧
      1 ≤ { s0 with fifoB := [0x41#8] }.fifoB.length) ∧
    s0.fifoA.length < 1 ∧ s0.fifoB.length < 1 := by decide

theorem witness_FrameDigits : (atFrame 65535).decoderSelect = false := rfl

/-- DipsetPermutesBankZero: bank 0, the next bank and the last. -/
theorem witness_Dipset : (0x000000#24) = 0#24 ∧ (0x000001#24) ≠ 0#24 ∧ (0xFFFFFF#24) ≠ 0#24 := by decide

/-- EveryBusWidthReachesTheSamePlaces: a 20-bit bus, an address and its mirror. -/
theorem witness_EveryBusWidth :
    16 ≤ { cfg0 with busAddrW := 20 }.busAddrW ∧
    (0x05807#20 : BitVec { cfg0 with busAddrW := 20 }.busAddrW).toNat % 65536 =
      (0xF5807#20 : BitVec { cfg0 with busAddrW := 20 }.busAddrW).toNat % 65536 := by decide

end Sys2Proof.Tests
end

/-! PROOFS of the family 00_scope.md: every bus width reaches the same places (R9, R51). The one idea: the
decoder's tests and the operations' effects see an issued address only through its masked address, so two
issued addresses with the same remainder modulo 65536 make the same step. -/

namespace Sys2Proof

/-- Two addresses are mirrors exactly when their remainders agree (R51). -/
theorem maskAddr_eq_iff {w : Nat} (a a' : BitVec w) :
    maskAddr a = maskAddr a' ↔ a.toNat % 65536 = a'.toNat % 65536 := by
  rw [← BitVec.toNat_inj, maskAddr_toNat, maskAddr_toNat]

/-- A bus of 16 bits or more can issue an address with any masked address: the masked address itself. -/
theorem maskAddr_setWidth_of_le {w : Nat} (hw : 16 ≤ w) (m : Word16) : maskAddr (m.setWidth w) = m := by
  rw [maskAddr_eq_setWidth, BitVec.setWidth_setWidth_of_le m hw, BitVec.setWidth_eq]

/-- A read word with a nonzero data field is reserved whatever its processor and address (R91). -/
theorem decodeWith_busWord_readData (c : Configuration) (p : Proc) (a : BusAddr) {v : Byte} (hv : v ≠ 0#8) :
    decodeWith c (busWord p false a v) = .error .readData := by
  cases p <;> simp [decodeWith, decodeBus, Proc.id, hv]

end Sys2Proof

namespace Sys2Proof.Machine

section Mirror

/-! ### Mirrored addresses: two addresses with the same masked address -/

variable {a a' : BusAddr}

/-! The shared operations of the router. -/

theorem readStored_mirror (h : maskAddr a = maskAddr a') (c : Configuration) (p : Proc) (s : State) :
    readStored c p a s = readStored c p a' s := by
  rw [readStored_eq, readStored_eq, h]

theorem readUnmapped_mirror (h : maskAddr a = maskAddr a') (c : Configuration) (p : Proc) (s : State) :
    readUnmapped c p a s = readUnmapped c p a' s := by
  rw [readUnmapped_eq, readUnmapped_eq, h]

theorem writeStored_mirror (h : maskAddr a = maskAddr a') (c : Configuration) (p : Proc) (v : Byte) (s : State) :
    writeStored c p a v s = writeStored c p a' v s := by
  rw [writeStored, writeStored, h]

theorem writeRom_mirror (h : maskAddr a = maskAddr a') (c : Configuration) (p : Proc) (v : Byte) (s : State) :
    writeRom c p a v s = writeRom c p a' v s := by
  rw [writeRom, writeRom, h]

theorem writeUnmapped_mirror (h : maskAddr a = maskAddr a') (p : Proc) (v : Byte) (s : State) :
    writeUnmapped p a v s = writeUnmapped p a' v s := by
  rw [writeUnmapped_eq, writeUnmapped_eq, h]

theorem writeTile_mirror (h : maskAddr a = maskAddr a') (c : Configuration) (v : Byte) (s : State) :
    writeTile c a v s = writeTile c a' v s := by
  rw [writeTile, writeTile, writeStored_mirror h, h]

theorem writePalette_mirror (h : maskAddr a = maskAddr a') (c : Configuration) (v : Byte) (s : State) :
    writePalette c a v s = writePalette c a' v s := by
  rw [writePalette, writePalette, writeStored_mirror h, h]

/-- A completed operation's outcome is its next state. -/
theorem next_congr {s t : State} (h : s = t) : (.next s : Host.Outcome State Fault Refusal) = .next t :=
  congrArg _ h

/-- One test of a decoder's chain, the same for both addresses. -/
theorem exec_ite_congr {P : Prop} [Decidable P] {i i' j j' : Instr} {s : State} (hthen : exec i s = exec i' s)
    (helse : exec j s = exec j' s) : exec (if P then i else j) s = exec (if P then i' else j') s := by
  by_cases hP : P
  · rwa [if_pos hP, if_pos hP]
  · rwa [if_neg hP, if_neg hP]

/-! The operation decoded, per processor and direction, its cases in the order of the decoder's tests (R86).
A register operation makes no use of its address, so there both sides are the same term. -/

theorem exec_decodeMainRead_mirror (h : maskAddr a = maskAddr a') (c : Configuration) (s : State) :
    exec (decodeMainRead c a) s = exec (decodeMainRead c a') s := by
  simp only [decodeMainRead, h]
  have stored := next_congr (readStored_mirror h Config.machine .main s)
  have fallback := next_congr (readUnmapped_mirror h Config.machine .main s)
  exact exec_ite_congr rfl <| exec_ite_congr rfl <| exec_ite_congr rfl <| exec_ite_congr rfl <|
    exec_ite_congr rfl <| exec_ite_congr fallback <| exec_ite_congr stored <| exec_ite_congr stored <|
    exec_ite_congr stored <| exec_ite_congr stored <| exec_ite_congr stored fallback

theorem exec_decodeMainWrite_mirror (h : maskAddr a = maskAddr a') (c : Configuration) (v : Byte) (s : State) :
    exec (decodeMainWrite c a v) s = exec (decodeMainWrite c a' v) s := by
  simp only [decodeMainWrite, h]
  have stored := next_congr (writeStored_mirror h Config.machine .main v s)
  have tile := next_congr (writeTile_mirror h Config.machine v s)
  have palette := next_congr (writePalette_mirror h Config.machine v s)
  have rom := next_congr (writeRom_mirror h Config.machine .main v s)
  have fallback := next_congr (writeUnmapped_mirror h .main v s)
  exact exec_ite_congr rfl <| exec_ite_congr rfl <| exec_ite_congr rfl <| exec_ite_congr rfl <|
    exec_ite_congr fallback <| exec_ite_congr stored <| exec_ite_congr stored <| exec_ite_congr tile <|
    exec_ite_congr palette <| exec_ite_congr rom fallback

theorem exec_decodeARead_mirror (h : maskAddr a = maskAddr a') (c : Configuration) (s : State) :
    exec (decodeARead c a) s = exec (decodeARead c a') s := by
  simp only [decodeARead, h]
  have stored := next_congr (readStored_mirror h Config.machine .copA s)
  have fallback := next_congr (readUnmapped_mirror h Config.machine .copA s)
  exact exec_ite_congr rfl <| exec_ite_congr stored <| exec_ite_congr stored fallback

theorem exec_decodeAWrite_mirror (h : maskAddr a = maskAddr a') (c : Configuration) (v : Byte) (s : State) :
    exec (decodeAWrite c a v) s = exec (decodeAWrite c a' v) s := by
  simp only [decodeAWrite, h]
  have stored := next_congr (writeStored_mirror h Config.machine .copA v s)
  have rom := next_congr (writeRom_mirror h Config.machine .copA v s)
  have fallback := next_congr (writeUnmapped_mirror h .copA v s)
  exact exec_ite_congr fallback <| exec_ite_congr stored <| exec_ite_congr rom fallback

theorem exec_decodeBRead_mirror (h : maskAddr a = maskAddr a') (c : Configuration) (s : State) :
    exec (decodeBRead c a) s = exec (decodeBRead c a') s := by
  simp only [decodeBRead, h]
  have stored := next_congr (readStored_mirror h Config.machine .copB s)
  have fallback := next_congr (readUnmapped_mirror h Config.machine .copB s)
  exact exec_ite_congr rfl <| exec_ite_congr fallback <| exec_ite_congr stored <|
    exec_ite_congr stored fallback

theorem exec_decodeBWrite_mirror (h : maskAddr a = maskAddr a') (c : Configuration) (v : Byte) (s : State) :
    exec (decodeBWrite c a v) s = exec (decodeBWrite c a' v) s := by
  simp only [decodeBWrite, h]
  have stored := next_congr (writeStored_mirror h Config.machine .copB v s)
  have rom := next_congr (writeRom_mirror h Config.machine .copB v s)
  have fallback := next_congr (writeUnmapped_mirror h .copB v s)
  exact exec_ite_congr fallback <| exec_ite_congr rfl <| exec_ite_congr stored <|
    exec_ite_congr rom fallback

theorem exec_decodeAt_mirror (h : maskAddr a = maskAddr a') (c : Configuration) (p : Proc) (write : Bool)
    (v : Byte) (s : State) : exec (decodeAt c p write a v) s = exec (decodeAt c p write a' v) s :=
  match p, write with
  | .main, false => exec_decodeMainRead_mirror h c s
  | .main, true => exec_decodeMainWrite_mirror h c v s
  | .copA, false => exec_decodeARead_mirror h c s
  | .copA, true => exec_decodeAWrite_mirror h c v s
  | .copB, false => exec_decodeBRead_mirror h c s
  | .copB, true => exec_decodeBWrite_mirror h c v s

end Mirror

/-! ### The step on a presented word -/

theorem step_cons_ok {s : State} {w : OpWord} {rest : List OpWord} {i : Instr} (hs : s.input = w :: rest)
    (hw : decode w = .ok i) : step s = exec i { s with input := rest } := by
  simp only [step, takeWord_cons hs, hw]

theorem step_cons_error {s : State} {w : OpWord} {rest : List OpWord} {why : Reserved}
    (hs : s.input = w :: rest) (hw : decode w = .error why) : step s = .refused (.reservedWord why) := by
  simp only [step, takeWord_cons hs, hw]

/-- Two bus words whose addresses mask to the same place make the same step: both perform the same operation,
or, as reads with a nonzero data field, both are reserved (R51, R91). -/
theorem step_busWord_mirror {a a' : BusAddr} (h : maskAddr a = maskAddr a') (p : Proc) (write : Bool)
    (v : Byte) (s : State) (rest : List OpWord) :
    step { s with input := busWord p write a v :: rest } =
      step { s with input := busWord p write a' v :: rest } := by
  by_cases hv : write = false → v = 0#8
  · rw [step_cons_ok rfl (decodeWith_busWord Config.machine p write a v hv),
      step_cons_ok rfl (decodeWith_busWord Config.machine p write a' v hv)]
    exact exec_decodeAt_mirror h Config.machine p write v { s with input := rest }
  · obtain ⟨rfl, hdata⟩ := Classical.not_imp.mp hv
    rw [step_cons_error rfl (decodeWith_busWord_readData Config.machine p a hdata),
      step_cons_error rfl (decodeWith_busWord_readData Config.machine p a' hdata)]

/-- The same for the words that carry addresses issued on a bus of any width (R9, D3). -/
theorem step_issueWord_mirror (c : Configuration) {a a' : BitVec c.busAddrW} (h : maskAddr a = maskAddr a')
    (p : Proc) (write : Bool) (v : Byte) (s : State) (rest : List OpWord) :
    step { s with input := issueWord c p write a v :: rest } =
      step { s with input := issueWord c p write a' v :: rest } :=
  step_busWord_mirror (by rw [maskAddr_carryAddr, maskAddr_carryAddr, h]) p write v s rest

/-- Settles O56: masking is the remainder, carrying keeps the masked address, and the step sees nothing else
of an address. -/
theorem everyBusWidthReachesTheSamePlaces : Obligations.EveryBusWidthReachesTheSamePlaces := by
  intro c
  refine ⟨fun a => ⟨maskAddr_toNat a, maskAddr_carryAddr c a⟩, ?_, ?_⟩
  · intro p write a a' v s rest h
    exact step_issueWord_mirror c ((maskAddr_eq_iff a a').2 h) p write v s rest
  · intro hw m
    exact ⟨m.setWidth c.busAddrW, by rw [maskAddr_carryAddr, maskAddr_setWidth_of_le hw]⟩

end Sys2Proof.Machine

/-! PROOFS of the family 10_state.md: what may change the images, the audio-ready flag and base_offset (R21,
R26, R27), and the invariants of R39. The one idea: `exec_effect` says once what any of the 49 operations can
do to the fields those rules speak of (`watched`); each rule is then a case analysis over those ten
ways. -/

namespace Sys2Proof.Machine

/-! ### The watched fields -/

/-- The fields the rules of this family speak of. -/
structure Watched where
  mem0 : Memory
  mem1 : Memory
  mem2 : Memory
  ctrlLatch : Byte
  audioReady : Bool
  baseOffset : Option (BitVec 32)
  position : Nat
  fifoB : List Byte
  transparency : Bool

/-- The watched fields of a state. -/
def watched (s : State) : Watched where
  mem0 := s.mem0
  mem1 := s.mem1
  mem2 := s.mem2
  ctrlLatch := s.ctrlLatch
  audioReady := s.audioReady
  baseOffset := s.baseOffset
  position := s.position
  fifoB := s.fifoB
  transparency := s.transparency

theorem image_congr {s t : State} (h : watched t = watched s) (p : Proc) : image p t = image p s := by
  cases p
  · exact congrArg Watched.mem0 h
  · exact congrArg Watched.mem1 h
  · exact congrArg Watched.mem2 h

theorem audioReady_congr {s t : State} (h : watched t = watched s) : t.audioReady = s.audioReady :=
  congrArg Watched.audioReady h

theorem baseOffset_congr {s t : State} (h : watched t = watched s) : t.baseOffset = s.baseOffset :=
  congrArg Watched.baseOffset h

/-- The invariants speak of watched fields only. -/
theorem Inv.congr {c : Configuration} {s t : State} (hs : Inv c s) (h : watched t = watched s) : Inv c t := by
  have hpos : t.position = s.position := congrArg Watched.position h
  have htr : t.transparency = s.transparency := congrArg Watched.transparency h
  have hlatch : t.ctrlLatch = s.ctrlLatch := congrArg Watched.ctrlLatch h
  have hfifo : t.fifoB = s.fifoB := congrArg Watched.fifoB h
  constructor
  case image => intro p; rw [image_congr h]; exact hs.image p
  case position => rw [hpos]; exact hs.position
  case transparency => rw [htr, hlatch]; exact hs.transparency
  case base => rw [baseOffset_congr h]; exact hs.base
  case fifoB => rw [hfifo]; exact hs.fifoB

/-! ### The shared operations seen through the watched fields -/

theorem watched_driveLine (l : Line) (b : Bool) (s : State) : watched (driveLine l b s) = watched s := by
  cases l <;> rfl

theorem watched_writeStored (c : Configuration) (p : Proc) (addr : BusAddr) (v : Byte) (s : State) :
    watched (writeStored c p addr v s) = watched (storeByte c p (maskAddr addr).toNat v s) := by
  cases p <;> rfl

theorem watched_writeRom (c : Configuration) (p : Proc) (addr : BusAddr) (v : Byte) (s : State) :
    watched (writeRom c p addr v s) = watched (storeByte c p (maskAddr addr).toNat v s) := by
  cases p <;> rfl

/-- The dirty flag a tile write may set is not watched. -/
theorem watched_writeTile (c : Configuration) (addr : BusAddr) (v : Byte) (s : State) :
    watched (writeTile c addr v s) = watched (storeByte c .main (maskAddr addr).toNat v s) := by
  obtain ⟨-, h⟩ | ⟨-, h⟩ := writeTile_cases c addr v s <;> rw [h] <;>
    exact watched_writeStored c .main addr v s

/-- The dirty flag a palette write may set is not watched. -/
theorem watched_writePalette (c : Configuration) (addr : BusAddr) (v : Byte) (s : State) :
    watched (writePalette c addr v s) = watched (storeByte c .main (maskAddr addr).toNat v s) := by
  obtain ⟨-, h⟩ | ⟨-, h⟩ := writePalette_cases c addr v s <;> rw [h] <;>
    exact watched_writeStored c .main addr v s

theorem watched_sendToA (v : Byte) (s : State) : watched (sendToA v s) = watched s := rfl

theorem watched_sendToB (v : Byte) (s : State) :
    watched (sendToB v s) = watched { s with fifoB := push s.fifoB v } := rfl

theorem watched_readMboxA (c : Configuration) (s : State) : watched (readMboxA c s) = watched s := by
  cases h : s.fifoA with
  | nil => rw [readMboxA_nil c h]; rfl
  | cons v rest => rw [readMboxA_cons c h]; rfl

theorem watched_readMboxB (c : Configuration) (s : State) :
    watched (readMboxB c s) = watched { s with fifoB := s.fifoB.tail } := by
  cases h : s.fifoB with
  | nil => rw [readMboxB_nil c h]; simp [watched, h]
  | cons v rest => rw [readMboxB_cons c h]; rfl

theorem watched_setDip (c : Configuration) (bank : BitVec 24) (value : Byte) (s : State) :
    watched (setDip c bank value s) = watched s := by
  by_cases h : bank = 0#24
  · rw [setDip, if_pos h]; rfl
  · rw [setDip, if_neg h]; rfl

/-- Of the six steps of TICK only the fifth, the stream update, touches a watched field. -/
theorem watched_tickAll (c : Configuration) (s : State) : watched (tickAll c s) = watched (streamFieldUpdate s) := by
  simp [watched, tickAll, tickCopIrq_eq, streamFieldUpdate_eq, tickMainIrq_eq, tickRedraw_eq, tickSigloss_eq,
    tickPalette_eq]

/-! ### What an operation can do to the watched fields -/

/-- The ways an operation `i` can act on the watched fields, from `s` to `t`. -/
inductive Effect (i : Instr) (s t : State) : Prop where
  /-- No watched field changes. -/
  | quiet (h : watched t = watched s)
  /-- A RAM or ROM write by processor p (R21). -/
  | store (p : Proc) (addr : BusAddr) (v : Byte) (hp : i.agent = .proc p) (hi : i.storesImage = true)
      (h : watched t = watched (storeByte Config.machine p (maskAddr addr).toNat v s))
  /-- An audio-mode data read (R174). -/
  | advance (h : watched t = watched (advance s))
  /-- A sound write of a byte that is not zero (R190). -/
  | send (v : Byte) (hv : v ≠ 0x00#8) (h : watched t = watched { s with fifoB := push s.fifoB v })
  /-- A mailbox read by coprocessor B (R193). -/
  | take (h : watched t = watched { s with fifoB := s.fifoB.tail })
  /-- A control write (R204). -/
  | ctrl (v : Byte) (h : watched t = watched (writeCtrl Config.machine v s))
  /-- A peripheral command (R177). -/
  | ldcmd (addr : BusAddr) (v : Byte) (hi : i = .mwrLdcmd addr v)
      (h : watched t = watched (writeLdcmd Config.machine v s))
  /-- A field tick (R170). -/
  | tick (hi : i = .tick) (h : watched t = watched (streamFieldUpdate s))
  /-- A stream reset (R178). -/
  | ldreset (hi : i = .ldreset) (h : watched t = watched (resetStream s))
  /-- A full reset (R260). -/
  | reset (hi : i = .reset) (h : watched t = watched (resetAll Config.machine s))

theorem effect_mrdLddata (addr : BusAddr) (s : State) : Effect (.mrdLddata addr) s (readLddata Config.machine s) := by
  cases h : s.decoderSelect with
  | false => exact .quiet (by rw [readLddata_video _ h]; rfl)
  | true => exact .advance (by rw [readLddata_audio _ h]; rfl)

/-- The machine's FIFOs are unbounded, so a sound write completes (D27). -/
theorem exec_mwrSound (addr : BusAddr) (v : Byte) (s : State) :
    exec (.mwrSound addr v) s =
      .next (if v = 0x00#8 then sendToA v (startOp s) else sendToB v (sendToA v (startOp s))) :=
  writeSound_unbounded (c := Config.machine) rfl v s

theorem effect_mwrSound (addr : BusAddr) (v : Byte) (s : State) :
    Effect (.mwrSound addr v) s
      (if v = 0x00#8 then sendToA v (startOp s) else sendToB v (sendToA v (startOp s))) := by
  by_cases hv : v = 0x00#8
  · rw [if_pos hv]
    exact .quiet (watched_sendToA v (startOp s))
  · rw [if_neg hv]
    exact .send v hv (watched_sendToB v (sendToA v (startOp s)))

/-- Every operation completes, in one of the ways listed. -/
theorem exec_completes_effect (i : Instr) (s : State) : ∃ t, exec i s = .next t ∧ Effect i s t := by
  cases i with
  | mrdLowram | mrdSprite | mrdTile | mrdPalette | mrdDip | mrdService | mrdLdframe | mrdLdstatus | mrdUndef
  | mrdRom | mrdUnmapped | ardRam | ardRom | ardUnmapped | brdRam | brdUndef | brdRom | brdUnmapped =>
    exact ⟨_, rfl, .quiet rfl⟩
  | mwrLdsel | mwrUndef | mwrUnmapped | awrUndef | awrUnmapped | bwrCtrl | bwrUndef | bwrUnmapped =>
    exact ⟨_, rfl, .quiet rfl⟩
  | svcset | sigloss | ldframe => exact ⟨_, rfl, .quiet rfl⟩
  | dipset bank value => exact ⟨_, rfl, .quiet (watched_setDip Config.machine bank value s)⟩
  | irqack l => exact ⟨_, rfl, .quiet (watched_driveLine l false (startOp s))⟩
  | ardMbox => exact ⟨_, rfl, .quiet (watched_readMboxA Config.machine s)⟩
  | brdMbox => exact ⟨_, rfl, .take (watched_readMboxB Config.machine s)⟩
  | mwrLowram addr v | mwrSprite addr v =>
    exact ⟨_, rfl, .store .main addr v rfl rfl (watched_writeStored Config.machine .main addr v s)⟩
  | awrRam addr v => exact ⟨_, rfl, .store .copA addr v rfl rfl (watched_writeStored Config.machine .copA addr v s)⟩
  | bwrRam addr v => exact ⟨_, rfl, .store .copB addr v rfl rfl (watched_writeStored Config.machine .copB addr v s)⟩
  | mwrRom addr v => exact ⟨_, rfl, .store .main addr v rfl rfl (watched_writeRom Config.machine .main addr v s)⟩
  | awrRom addr v => exact ⟨_, rfl, .store .copA addr v rfl rfl (watched_writeRom Config.machine .copA addr v s)⟩
  | bwrRom addr v => exact ⟨_, rfl, .store .copB addr v rfl rfl (watched_writeRom Config.machine .copB addr v s)⟩
  | mwrTile addr v => exact ⟨_, rfl, .store .main addr v rfl rfl (watched_writeTile Config.machine addr v s)⟩
  | mwrPalette addr v => exact ⟨_, rfl, .store .main addr v rfl rfl (watched_writePalette Config.machine addr v s)⟩
  | mrdLddata addr => exact ⟨_, rfl, effect_mrdLddata addr s⟩
  | mwrSound addr v => exact ⟨_, exec_mwrSound addr v s, effect_mwrSound addr v s⟩
  | mwrCtrl _ v => exact ⟨_, rfl, .ctrl v rfl⟩
  | mwrLdcmd addr v => exact ⟨_, rfl, .ldcmd addr v rfl rfl⟩
  | tick => exact ⟨_, rfl, .tick rfl (watched_tickAll Config.machine s)⟩
  | ldreset => exact ⟨_, rfl, .ldreset rfl rfl⟩
  | reset => exact ⟨_, rfl, .reset rfl rfl⟩

theorem exec_effect {i : Instr} {s t : State} (h : exec i s = .next t) : Effect i s t := by
  obtain ⟨t', ht', heff⟩ := exec_completes_effect i s
  obtain rfl : t' = t := Host.Outcome.next.inj (ht'.symm.trans h)
  exact heff

/-! ### The conditions of the stream engine, read as numbers -/

theorem pastThreshold_iff_packet (f : Word16) : pastThreshold f = true ↔ 44 ≤ f.toNat / 53 := decide_eq_true_iff

theorem qualifies_iff (f prev : Word16) :
    qualifies f prev = true ↔ f.toNat % 53 = 0 ∧ f ≠ prev ∧ 44 ≤ f.toNat / 53 := by
  simp [qualifies, onBoundary, pastThreshold_iff_packet, Config.framesPerPacket, and_assoc]

theorem reTick_iff (f prev : Word16) : reTick f prev = true ↔ f.toNat % 53 = 0 ∧ f = prev := by
  simp [reTick, onBoundary, Config.framesPerPacket]

theorem pauseEdge_iff (c : Configuration) (v : Byte) (prev : Option Byte) (f : Word16) :
    pauseEdge c v prev f = true ↔ v = c.pauseCmd ∧ prev ≠ some v ∧ 44 ≤ f.toNat / 53 := by
  simp [pauseEdge, pastThreshold_iff_packet, and_assoc]

/-! ### The invariants at power-on -/

theorem Inv.powerOn (c : Configuration) : Inv c (State.powerOn c) where
  image p := by cases p <;> rfl
  position := Nat.zero_lt_succ _
  transparency := by simp [State.powerOn, genlockBit]
  base := nofun
  fifoB := nofun

/-- Settles O17: `State.reset` is the power-on state of the machine's own configuration. -/
theorem invariantsHoldAtPowerOn : Obligations.InvariantsHoldAtPowerOn :=
  ⟨Inv.powerOn Config.machine, Inv.powerOn⟩

/-! ### Each way of acting on the watched fields keeps the invariants -/

section KeepInv

variable {c : Configuration} {s : State}

theorem Inv.storeByte (hs : Inv c s) (p : Proc) (addr : BusAddr) (v : Byte) :
    Inv c (storeByte c p (maskAddr addr).toNat v s) where
  image _ := image_storeByte_wf hs.image (maskAddr_lt addr) v
  position := by rw [storeByte_position]; exact hs.position
  transparency := by rw [storeByte_transparency, storeByte_ctrlLatch]; exact hs.transparency
  base := by rw [storeByte_baseOffset]; exact hs.base
  fifoB := by rw [storeByte_fifoB]; exact hs.fifoB

/-- The canonical form, the genlock bit and fifo_b where only stream fields move. -/
theorem Inv.withStream (hs : Inv c s) {base : Option (BitVec 32)} {pos : Nat} (hpos : pos < Config.packetLen)
    (hbase : baseLegal base) (ready : Bool) (prevFrame : Word16) (prevCmd : Option Byte) :
    Inv c { s with baseOffset := base, position := pos, audioReady := ready, prevFrame := prevFrame,
                   prevCmd := prevCmd } where
  image p := by cases p <;> exact hs.image _
  position := hpos
  transparency := hs.transparency
  base := hbase
  fifoB := hs.fifoB

theorem Inv.withFifoB (hs : Inv c s) {q : List Byte} (hq : ∀ v ∈ q, v ≠ 0x00#8) :
    Inv c { s with fifoB := q } where
  image p := by cases p <;> exact hs.image _
  position := hs.position
  transparency := hs.transparency
  base := hs.base
  fifoB := hq

/-- The cursor wraps at the packet's length (R28). -/
theorem Inv.advance (hs : Inv c s) : Inv c (advance s) :=
  hs.withStream (Nat.mod_lt _ (Nat.zero_lt_succ _)) hs.base s.audioReady s.prevFrame s.prevCmd

theorem Inv.push (hs : Inv c s) {v : Byte} (hv : v ≠ 0x00#8) : Inv c { s with fifoB := push s.fifoB v } := by
  refine hs.withFifoB fun w hw => ?_
  obtain hw | hw := List.mem_append.mp hw
  · exact hs.fifoB w hw
  · rwa [List.mem_singleton.mp hw]

theorem Inv.tail (hs : Inv c s) : Inv c { s with fifoB := s.fifoB.tail } :=
  hs.withFifoB fun w hw => hs.fifoB w (List.mem_of_mem_tail hw)

/-- Without an edge the old transparency already equals the new genlock bit; with one it is set to it. -/
theorem Inv.writeCtrl (hs : Inv c s) (v : Byte) : Inv c (writeCtrl c v s) := by
  rw [writeCtrl_eq]
  refine ⟨fun p => by cases p <;> exact hs.image _, hs.position, ?_, hs.base, hs.fifoB⟩
  by_cases hedge : genlockEdge c s.ctrlLatch v = true
  · exact if_pos hedge
  · have hsame : genlockBit c s.ctrlLatch = genlockBit c v := by simpa [genlockEdge] using hedge
    exact (if_neg hedge).trans (hs.transparency.trans hsame)

theorem Inv.writeLdcmd (hs : Inv c s) (v : Byte) : Inv c (writeLdcmd c v s) := by
  have hpos : (if pauseEdge c v s.prevCmd s.ldFrame then 0 else s.position) < Config.packetLen := by
    split
    · exact Nat.zero_lt_succ _
    · exact hs.position
  rw [writeLdcmd_eq]
  exact (hs.withStream hpos hs.base _ s.prevFrame (some v)).congr rfl

/-- A frame at or past the threshold loads a packet's base (R27, R171). -/
theorem baseLegal_packetBase {f : Word16} (hf : 44 ≤ packetIndex f) :
    baseLegal (some (packetBase (packetIndex f))) := by
  rintro x ⟨⟩
  exact ⟨packetIndex f, hf, packetIndex_le f, packetBase_toNat (packetIndex_le f)⟩

theorem Inv.streamFieldUpdate (hs : Inv c s) : Inv c (streamFieldUpdate s) := by
  rw [streamFieldUpdate_eq]
  refine hs.withStream ?_ ?_ _ s.ldFrame s.prevCmd
  · split
    · exact Nat.zero_lt_succ _
    · exact hs.position
  · split
    next hq => exact baseLegal_packetBase ((qualifies_iff _ _).mp hq).2.2
    next => exact hs.base

theorem Inv.resetStream (hs : Inv c s) : Inv c (resetStream s) :=
  hs.withStream (Nat.zero_lt_succ _) (Inv.powerOn c).base false 0#16 none

/-- RESET keeps the images and takes every other watched field to its power-on value (R261). -/
theorem Inv.resetAll (hs : Inv c s) : Inv c (resetAll c s) where
  image p := by cases p <;> exact hs.image _
  position := (Inv.powerOn c).position
  transparency := (Inv.powerOn c).transparency
  base := (Inv.powerOn c).base
  fifoB := (Inv.powerOn c).fifoB

end KeepInv

theorem exec_keeps_inv {i : Instr} {s t : State} (hs : Inv Config.machine s) (h : exec i s = .next t) :
    Inv Config.machine t := by
  cases exec_effect h with
  | quiet h => exact hs.congr h
  | store p addr v _ _ h => exact (hs.storeByte p addr v).congr h
  | advance h => exact hs.advance.congr h
  | send v hv h => exact (hs.push hv).congr h
  | take h => exact hs.tail.congr h
  | ctrl v h => exact (hs.writeCtrl v).congr h
  | ldcmd addr v _ h => exact (hs.writeLdcmd v).congr h
  | tick _ h => exact hs.streamFieldUpdate.congr h
  | ldreset _ h => exact hs.resetStream.congr h
  | reset _ h => exact hs.resetAll.congr h

/-- A step is idle, or performs one operation on the state without its word. -/
theorem step_cases {s t : State} (h : step s = .next t) :
    t = startOp s ∨ ∃ i rest, exec i { s with input := rest } = .next t := by
  cases hin : s.input with
  | nil =>
    rw [step, takeWord_nil hin] at h
    exact .inl (Host.Outcome.next.inj h).symm
  | cons w rest =>
    cases hw : decode w with
    | ok i => exact .inr ⟨i, rest, by rw [← step_cons_ok hin hw, h]⟩
    | error why => exact absurd (h.symm.trans (step_cons_error hin hw)) nofun

/-- Settles O18: the operation taken from the queue keeps the invariants, and the queue is not watched. -/
theorem everyStepKeepsTheInvariants : Obligations.EveryStepKeepsTheInvariants := by
  intro s t hs h
  obtain rfl | ⟨i, rest, hi⟩ := step_cases h
  · exact hs.congr rfl
  · exact exec_keeps_inv (s := { s with input := rest }) (hs.congr rfl) hi

/-! ### The images (R21) -/

theorem image_storeByte_other {p q : Proc} (hne : q ≠ p) (c : Configuration) (a : Nat) (v : Byte) (s : State) :
    image q (storeByte c p a v s) = image q s := image_setImage_other hne _ s

/-- Processor p's image is kept, or the operation is a RAM or ROM write by p. -/
theorem image_cases {i : Instr} {s t : State} (h : Effect i s t) (p : Proc) :
    image p t = image p s ∨ (i.agent = .proc p ∧ i.storesImage = true) := by
  cases h with
  | store q addr v hq hi h =>
    by_cases hpq : p = q
    · exact .inr ⟨hpq ▸ hq, hi⟩
    · exact .inl ((image_congr h p).trans (image_storeByte_other hpq _ _ v s))
  | quiet h => exact .inl (image_congr h p)
  | ctrl v h => exact .inl ((image_congr h p).trans (by rw [writeCtrl_eq]; cases p <;> rfl))
  | ldcmd addr v _ h => exact .inl ((image_congr h p).trans (by rw [writeLdcmd_eq]; cases p <;> rfl))
  | tick _ h => exact .inl ((image_congr h p).trans (by rw [streamFieldUpdate_eq]; cases p <;> rfl))
  | advance h | send _ _ h | take h | ldreset _ h | reset _ h =>
    exact .inl ((image_congr h p).trans (by cases p <;> rfl))

/-- Settles O11: of the ways of acting on an image only the store changes it. -/
theorem onlyItsOwnProcessorWritesAnImage : Obligations.OnlyItsOwnProcessorWritesAnImage :=
  fun _ _ _ h p hne => (image_cases (exec_effect h) p).resolve_left hne

/-! ### The audio-ready flag (R26) -/

/-- The flag is kept, set by a qualifying transition or a pause edge (R171, R177), or cleared by a same-frame
re-tick or one of the two resets (R172, R178). -/
theorem audioReady_cases {i : Instr} {s t : State} (h : Effect i s t) :
    t.audioReady = s.audioReady ∨
    (t.audioReady = true ∧ ((i = .tick ∧ qualifies s.ldFrame s.prevFrame = true) ∨
      ∃ addr v, i = .mwrLdcmd addr v ∧ pauseEdge Config.machine v s.prevCmd s.ldFrame = true)) ∨
    (t.audioReady = false ∧ ((i = .tick ∧ reTick s.ldFrame s.prevFrame = true) ∨ i = .ldreset ∨ i = .reset)) := by
  cases h with
  | tick hi h =>
    rw [audioReady_congr h, streamFieldUpdate_eq]
    by_cases hq : qualifies s.ldFrame s.prevFrame = true
    · exact .inr (.inl ⟨if_pos hq, .inl ⟨hi, hq⟩⟩)
    · by_cases hr : reTick s.ldFrame s.prevFrame = true
      · exact .inr (.inr ⟨(if_neg hq).trans (if_pos hr), .inl ⟨hi, hr⟩⟩)
      · exact .inl ((if_neg hq).trans (if_neg hr))
  | ldcmd addr v hi h =>
    rw [audioReady_congr h, writeLdcmd_eq]
    by_cases he : pauseEdge Config.machine v s.prevCmd s.ldFrame = true
    · exact .inr (.inl ⟨if_pos he, .inr ⟨addr, v, hi, he⟩⟩)
    · exact .inl (if_neg he)
  | ldreset hi h => exact .inr (.inr ⟨audioReady_congr h, .inr (.inl hi)⟩)
  | reset hi h => exact .inr (.inr ⟨audioReady_congr h, .inr (.inr hi)⟩)
  | store p addr v _ _ h => exact .inl ((audioReady_congr h).trans (storeByte_audioReady _ p _ v s))
  | ctrl v h => exact .inl ((audioReady_congr h).trans (by rw [writeCtrl_eq]))
  | quiet h | advance h | send _ _ h | take h => exact .inl ((audioReady_congr h).trans rfl)

/-- Settles O15: the conditions of the stream engine, read as numbers. -/
theorem audioReadyChangesOnlyAsListed : Obligations.AudioReadyChangesOnlyAsListed := by
  intro i s t h
  obtain hkeep | ⟨hset, ⟨hi, hq⟩ | ⟨addr, v, hi, he⟩⟩ | ⟨hclear, hwhy⟩ := audioReady_cases (exec_effect h)
  · exact ⟨fun hs ht => by simp [hkeep, hs] at ht, fun hs ht => by simp [hkeep, hs] at ht⟩
  · exact ⟨fun _ _ => .inl ⟨hi, (qualifies_iff _ _).mp hq⟩, fun _ ht => by simp [hset] at ht⟩
  · obtain ⟨rfl, hprev, hf⟩ := (pauseEdge_iff _ _ _ _).mp he
    exact ⟨fun _ _ => .inr ⟨addr, hi, hprev, hf⟩, fun _ ht => by simp [hset] at ht⟩
  · exact ⟨fun _ ht => by simp [hclear] at ht,
      fun _ _ => hwhy.imp_left fun ⟨hi, hr⟩ => ⟨hi, (reTick_iff _ _).mp hr⟩⟩

/-! ### base_offset (R27, R39 (b)) -/

/-- base_offset is kept, loaded by a qualifying transition, or unloaded by one of the two resets (R171, R178). -/
theorem baseOffset_cases {i : Instr} {s t : State} (h : Effect i s t) :
    t.baseOffset = s.baseOffset ∨
    (i = .tick ∧ qualifies s.ldFrame s.prevFrame = true ∧ t.baseOffset.isSome = true) ∨
    i = .ldreset ∨ i = .reset := by
  cases h with
  | tick hi h =>
    rw [baseOffset_congr h, streamFieldUpdate_eq]
    by_cases hq : qualifies s.ldFrame s.prevFrame = true
    · exact .inr (.inl ⟨hi, hq, by simp [hq]⟩)
    · exact .inl (if_neg hq)
  | ldreset hi _ => exact .inr (.inr (.inl hi))
  | reset hi _ => exact .inr (.inr (.inr hi))
  | store p addr v _ _ h => exact .inl ((baseOffset_congr h).trans (storeByte_baseOffset _ p _ v s))
  | ctrl v h => exact .inl ((baseOffset_congr h).trans (by rw [writeCtrl_eq]))
  | ldcmd addr v _ h => exact .inl ((baseOffset_congr h).trans (by rw [writeLdcmd_eq]))
  | quiet h | advance h | send _ _ h | take h => exact .inl ((baseOffset_congr h).trans rfl)

/-- Settles O16: a qualifying transition loads, so it never unloads. -/
theorem baseOffsetChangesOnlyAsListed : Obligations.BaseOffsetChangesOnlyAsListed := by
  intro i s t h
  obtain hkeep | ⟨hi, hq, hsome⟩ | hreset := baseOffset_cases (exec_effect h)
  · exact ⟨fun hne => absurd hkeep hne, fun hs ht => by simp [← hkeep, ht] at hs⟩
  · exact ⟨fun _ => .inl ⟨hi, (qualifies_iff _ _).mp hq⟩, fun _ ht => by simp [ht] at hsome⟩
  · exact ⟨fun _ => .inr hreset, fun _ _ => hreset⟩

/-! ### Writes of what is already there (R39 (c)) -/

/-- A RAM write of the byte already stored leaves the canonical image as it is. -/
theorem writeStored_readByte {c : Configuration} {p : Proc} {s : State}
    (h : (image p s).wf (powerOnByte c p) = true) (addr : BusAddr) :
    writeStored c p addr (readByte c p (maskAddr addr).toNat s) s = startOp s := by
  rw [writeStored, ← readByte_startOp]
  exact storeByte_readByte (by rwa [image_startOp]) _

theorem writeTile_unchanged (c : Configuration) (addr : BusAddr) (s : State) :
    writeTile c addr (readByte c .main (maskAddr addr).toNat s) s =
      writeStored c .main addr (readByte c .main (maskAddr addr).toNat s) s := if_pos rfl

theorem writePalette_unchanged (c : Configuration) (addr : BusAddr) (s : State) :
    writePalette c addr (readByte c .main (maskAddr addr).toNat s) s =
      writeStored c .main addr (readByte c .main (maskAddr addr).toNat s) s := if_pos rfl

/-- A control write with neither edge changes the latch alone (R204). -/
theorem writeCtrl_noEdge {c : Configuration} {v : Byte} {s : State} (ho : overlayBit c v = overlayBit c s.ctrlLatch)
    (hg : genlockBit c v = genlockBit c s.ctrlLatch) :
    writeCtrl c v s = { s with ctrlLatch := v, result := .nothing, events := [] } := by
  have hover : overlayEdge c s.ctrlLatch v = false := by simp [overlayEdge, ho]
  have hgen : genlockEdge c s.ctrlLatch v = false := by simp [genlockEdge, hg]
  simp [writeCtrl_eq, hover, hgen]

/-- Settles O23: a store of the byte already there is no store, and a control write without an edge keeps the
flags. -/
theorem writesThatChangeNothingHaveNoSideEffect : Obligations.WritesThatChangeNothingHaveNoSideEffect := by
  refine ⟨fun addr s hwf => ?_, fun addr v s ho hg => ?_⟩
  · have hstore := writeStored_readByte hwf addr
    exact ⟨next_congr ((writeTile_unchanged _ addr s).trans hstore),
      next_congr ((writePalette_unchanged _ addr s).trans hstore)⟩
  · exact next_congr (writeCtrl_noEdge (c := Config.machine) ho hg)

/-! ### The next session (R246, R264) -/

/-- At power-on nothing is listed, so every byte reads as loaded. -/
theorem readByte_powerOn (c : Configuration) (p : Proc) (a : Nat) :
    readByte c p a (State.powerOn c) = powerOnByte c p a := by
  cases p <;> rfl

theorem powerOnByte_nextSession_main (c : Configuration) (s : State) (a : Nat) :
    powerOnByte (nextSession c s) .main a = if a < 4096 then readByte c .main a s else c.initMem .main a := rfl

/-- The main image of the next session: the battery-backed bytes as they were left. -/
theorem readByte_nextSession_battery (c : Configuration) (s : State) {a : Nat} (ha : a < 4096) :
    readByte (nextSession c s) .main a (State.powerOn (nextSession c s)) = readByte c .main a s := by
  rw [readByte_powerOn, powerOnByte_nextSession_main, if_pos ha]

/-- Settles O55: at power-on every byte reads as loaded, and the next session loads what this one left. -/
theorem batteryBackedBytesSurviveTheSession : Obligations.BatteryBackedBytesSurviveTheSession := by
  intro c s
  refine ⟨fun a ha => readByte_nextSession_battery c s ha, fun a ha => ?_, fun a => ?_, fun a => ?_, ?_⟩
  · rw [readByte_powerOn, powerOnByte_nextSession_main, if_neg (Nat.not_lt.mpr ha)]
  · exact readByte_powerOn (nextSession c s) .copA a
  · exact readByte_powerOn (nextSession c s) .copB a
  · exact List.map_congr_left fun a ha => readByte_nextSession_battery c s (List.mem_range.mp ha)

end Sys2Proof.Machine

/-! PROOFS of the family 20_memory.md: the step on the presented words (R58), mirrored addresses (R51) and
quiet reads (R65). The one idea of the last: an operation never looks at what the operation before it
reported (`exec_startOp`), so one that only reports a byte meets the same state when it is repeated. -/

namespace Sys2Proof.Machine

/-! ### The step and the presented words (R6, R58, R51) -/

theorem step_nil {s : State} (hs : s.input = []) : step s = .next (startOp s) := by
  rw [step, takeWord_nil hs]

/-- Settles O8: masking is the remainder, and two bus words whose addresses mask alike make the same step. -/
theorem mirroredAddressesReachTheSamePlace : Obligations.MirroredAddressesReachTheSamePlace :=
  ⟨maskAddr_toNat, fun p write a a' v s rest h =>
    step_busWord_mirror ((maskAddr_eq_iff a a').mpr h) p write v s rest⟩

/-- Settles O6: the idle step, the step on a word that decodes and the step on a reserved word. -/
theorem stepRunsTheDecodedOperation : Obligations.StepRunsTheDecodedOperation :=
  fun _ => ⟨step_nil, fun _ _ hs => ⟨fun _ hw => step_cons_ok hs hw, fun _ hw => step_cons_error hs hw⟩⟩

/-! ### Quiet reads (R65) -/

/-- No operation reads the result or the output events of the one before it (log 4). -/
theorem exec_startOp (i : Instr) (s : State) : exec i (startOp s) = exec i s := by
  cases i <;> rfl

/-- An operation that does no more than return a byte does the same when it is performed again. -/
theorem exec_again_of_returnByte {i : Instr} {s : State} {v : Byte}
    (h : exec i s = .next (returnByte v (startOp s))) :
    exec i (returnByte v (startOp s)) = .next (returnByte v (startOp s)) :=
  calc exec i (returnByte v (startOp s))
      = exec i (startOp (returnByte v (startOp s))) := (exec_startOp i _).symm
    _ = exec i (startOp s) := rfl
    _ = exec i s := exec_startOp i s
    _ = .next (returnByte v (startOp s)) := h

/-- In video mode LDDATA returns two frame digits and leaves the stream cursor where it is (R174). -/
theorem exec_mrdLddata_video (a : BusAddr) {s : State} (h : s.decoderSelect = false) :
    exec (.mrdLddata a) s = .next (returnByte (frameMidByte s.ldFrame) (startOp s)) :=
  next_congr (readLddata_video Config.machine h)

/-- Settles O26: each of these reads returns a byte and does no more. -/
theorem quietReadsAreRepeatable : Obligations.QuietReadsAreRepeatable := by
  intro i s hquiet
  have hreturns : ∃ v, exec i s = .next (returnByte v (startOp s)) := by
    obtain ⟨a, hmem⟩ | ⟨hvideo, a, rfl⟩ := hquiet
    · simp only [List.mem_cons, List.not_mem_nil, or_false] at hmem
      obtain rfl | rfl | rfl | rfl | rfl | rfl | rfl | rfl | rfl | rfl | rfl | rfl | rfl := hmem <;>
        exact ⟨_, rfl⟩
    · exact ⟨_, exec_mrdLddata_video a hvideo⟩
  obtain ⟨v, hv⟩ := hreturns
  exact ⟨v, hv, exec_again_of_returnByte hv⟩

end Sys2Proof.Machine

/-! PROOFS of the family 30_encoding.md: the decoder, the encoder, the reserved words and the opcode table
(R80 to R91, R96). The ideas: a word is the word of its own fields (`eq_busWord`, `eq_envWord`), so the
decoder need only be known on the encoder's words; and the address ranges of one processor and direction lie
apart, so that at most one operation is well formed on a bus word, and at most one row matches any word. -/

namespace Sys2Proof

/-! ### The fields of a word as numbers (R80 to R84) -/

theorem fieldKind_eq (w : OpWord) : fieldKind w = w.toNat / 2 ^ 36 := by
  have hw := w.isLt
  rw [fieldKind, BitVec.extractLsb'_toNat, Nat.shiftRight_eq_div_pow]
  omega

theorem fieldAgent_eq (w : OpWord) : fieldAgent w = w.toNat / 2 ^ 34 % 4 := by
  rw [fieldAgent, BitVec.extractLsb'_toNat, Nat.shiftRight_eq_div_pow]

theorem fieldRw_iff (w : OpWord) : fieldRw w = true ↔ w.toNat / 2 ^ 33 % 2 = 1 := by
  rw [fieldRw, BitVec.getLsbD, Nat.testBit_eq_decide_div_mod_eq, decide_eq_true_iff]

theorem fieldZero_iff (w : OpWord) : fieldZero w = true ↔ w.toNat / 2 ^ 32 % 2 = 1 := by
  rw [fieldZero, BitVec.getLsbD, Nat.testBit_eq_decide_div_mod_eq, decide_eq_true_iff]

theorem fieldAddr_toNat (w : OpWord) : (fieldAddr w).toNat = w.toNat / 2 ^ 8 % 2 ^ 24 := by
  rw [fieldAddr, BitVec.extractLsb'_toNat, Nat.shiftRight_eq_div_pow]

theorem fieldData_toNat (w : OpWord) : (fieldData w).toNat = w.toNat % 2 ^ 8 := by
  rw [fieldData, BitVec.extractLsb'_toNat, Nat.shiftRight_zero]

theorem fieldTickRest_toNat (w : OpWord) : (fieldTickRest w).toNat = w.toNat % 2 ^ 36 := by
  rw [fieldTickRest, BitVec.extractLsb'_toNat, Nat.shiftRight_zero]

theorem fieldSub_eq (w : OpWord) : fieldSub w = w.toNat / 2 ^ 32 % 16 := by
  rw [fieldSub, BitVec.extractLsb'_toNat, Nat.shiftRight_eq_div_pow]

theorem fieldAgent_lt (w : OpWord) : fieldAgent w < 4 := by
  rw [fieldAgent_eq]
  exact Nat.mod_lt _ (by decide)

/-! ### A word is the word of its own fields -/

/-- The kind, bits 35 to 32, the address (or arg) and the data (or val) are all the bits there are. -/
theorem word_ext {w w' : OpWord} (hkind : fieldKind w = fieldKind w') (hsub : fieldSub w = fieldSub w')
    (haddr : fieldAddr w = fieldAddr w') (hdata : fieldData w = fieldData w') : w = w' := by
  rw [fieldKind_eq, fieldKind_eq] at hkind
  rw [fieldSub_eq, fieldSub_eq] at hsub
  rw [← BitVec.toNat_inj, fieldAddr_toNat, fieldAddr_toNat] at haddr
  rw [← BitVec.toNat_inj, fieldData_toNat, fieldData_toNat] at hdata
  apply BitVec.eq_of_toNat_eq
  omega

/-- Bits 35 to 32 are one field of an environment word and three of a bus word (R81, R83). -/
theorem fieldSub_eq_busFields (w : OpWord) :
    fieldSub w = 4 * fieldAgent w + 2 * (fieldRw w).toNat + (fieldZero w).toNat := by
  have hrw : (fieldRw w).toNat = w.toNat / 2 ^ 33 % 2 := Nat.toNat_testBit w.toNat 33
  have hzero : (fieldZero w).toNat = w.toNat / 2 ^ 32 % 2 := Nat.toNat_testBit w.toNat 32
  rw [fieldSub_eq, fieldAgent_eq, hrw, hzero]
  omega

@[simp] theorem fieldSub_busWord (p : Proc) (wr : Bool) (a : BusAddr) (v : Byte) :
    fieldSub (busWord p wr a v) = 4 * p.id + 2 * wr.toNat := by
  simp [fieldSub_eq_busFields]

/-- The head of a bus word, kind and bits 35 to 32, fixes its processor and direction (R81). -/
theorem eq_busWord_of_head {w : OpWord} {p : Proc} {wr : Bool} (hk : fieldKind w = 0)
    (hs : fieldSub w = 4 * p.id + 2 * wr.toNat) : w = busWord p wr (fieldAddr w) (fieldData w) :=
  word_ext (by simp [hk]) (by simp [hs]) (by simp) (by simp)

theorem eq_busWord {w : OpWord} {p : Proc} (hk : fieldKind w = 0) (hz : fieldZero w = false)
    (hp : p.id = fieldAgent w) : w = busWord p (fieldRw w) (fieldAddr w) (fieldData w) :=
  eq_busWord_of_head hk (by simp [fieldSub_eq_busFields, hz, hp])

theorem eq_envWord_of_head {w : OpWord} {sub : BitVec 4} (hk : fieldKind w = 2) (hs : fieldSub w = sub.toNat) :
    w = envWord sub (fieldAddr w) (fieldData w) :=
  word_ext (by simp [hk]) (by simp [hs]) (by simp) (by simp)

theorem eq_envWord {w : OpWord} (hk : fieldKind w = 2) :
    w = envWord (w.extractLsb' 32 4) (fieldAddr w) (fieldData w) :=
  eq_envWord_of_head hk rfl

/-- The one word of kind 1 whose other bits are zero (R82). -/
theorem eq_tickWord {w : OpWord} (hk : fieldKind w = 1) (hrest : fieldTickRest w = 0#36) :
    w = encode .tick := by
  have htick : (encode .tick).toNat = 2 ^ 36 := by decide
  rw [fieldKind_eq] at hk
  rw [← BitVec.toNat_inj, fieldTickRest_toNat, BitVec.toNat_zero] at hrest
  apply BitVec.eq_of_toNat_eq
  omega

/-! ### The decoder on the words of each kind (R80, R91)

What it does on a bus word is said by `decodeWith_busWord` and `decodeWith_busWord_readData`. -/

theorem kind_cases (w : OpWord) : fieldKind w = 0 ∨ fieldKind w = 1 ∨ fieldKind w = 2 ∨ 3 ≤ fieldKind w := by
  omega

/-- The agent field names a processor or is 3 (R7, R81). -/
theorem agent_cases (w : OpWord) : fieldAgent w = 3 ∨ ∃ p : Proc, p.id = fieldAgent w := by
  have hlt := fieldAgent_lt w
  rw [exists_proc_id_iff, Config.nproc]
  omega

section Kinds

variable {w : OpWord} (c : Configuration)

theorem decodeWith_zeroBit (hk : fieldKind w = 0) (hz : fieldZero w = true) :
    decodeWith c w = .error .busZeroBit := by
  simp [decodeWith, decodeBus, hk, hz]

theorem decodeWith_agent (hk : fieldKind w = 0) (hz : fieldZero w = false) (ha : fieldAgent w = 3) :
    decodeWith c w = .error .agent := by
  simp [decodeWith, decodeBus, hk, hz, ha]

theorem decodeWith_tick (hk : fieldKind w = 1) :
    decodeWith c w = if fieldTickRest w = 0#36 then .ok .tick else .error .tickBits := by
  simp only [decodeWith, hk]

theorem decodeWith_kind (hk : 3 ≤ fieldKind w) : decodeWith c w = .error .kind := by
  obtain ⟨n, hn⟩ := Nat.exists_eq_add_of_le' hk
  simp only [decodeWith, hn]

/-- The words of kind 0: two reserved sorts, and the bus words. -/
theorem busKind_cases (hk : fieldKind w = 0) :
    fieldZero w = true ∨ (fieldZero w = false ∧ fieldAgent w = 3) ∨
      ∃ p wr a v, w = busWord p wr a v := by
  cases hz : fieldZero w with
  | true => exact .inl rfl
  | false =>
    obtain ha | ⟨p, hp⟩ := agent_cases w
    · exact .inr (.inl ⟨rfl, ha⟩)
    · exact .inr (.inr ⟨p, _, _, _, eq_busWord hk hz hp⟩)

end Kinds

section Env

/-! An environment word, sub by sub (R83). -/

variable (c : Configuration) (arg : BitVec 24) (val : Byte)

theorem decodeWith_envWord (sub : BitVec 4) :
    decodeWith c (envWord sub arg val) = decodeEnv (envWord sub arg val) := by
  simp only [decodeWith, fieldKind_envWord]

theorem decodeWith_reset :
    decodeWith c (envWord 0#4 arg val) = if arg = 0#24 ∧ val = 0#8 then .ok .reset else .error .envField := by
  simp [decodeWith, decodeEnv]

theorem decodeWith_ldreset :
    decodeWith c (envWord 1#4 arg val) = if arg = 0#24 ∧ val = 0#8 then .ok .ldreset else .error .envField := by
  simp [decodeWith, decodeEnv]

theorem decodeWith_dipset : decodeWith c (envWord 2#4 arg val) = .ok (.dipset arg val) := by
  simp [decodeWith, decodeEnv]

theorem decodeWith_svcset :
    decodeWith c (envWord 3#4 arg val) = if arg = 0#24 then .ok (.svcset val) else .error .envField := by
  simp [decodeWith, decodeEnv]

theorem decodeWith_sigloss :
    decodeWith c (envWord 4#4 arg val) = if val = 0#8 then .ok (.sigloss arg) else .error .envField := by
  simp [decodeWith, decodeEnv]

theorem decodeWith_irqack :
    decodeWith c (envWord 5#4 arg val) =
      if arg.extractLsb' 4 20 = 0#20 ∧ val = 0#8 then
        (lineOf (arg.extractLsb' 2 2).toNat (arg.extractLsb' 0 2).toNat).elim (.error .irqPair) (.ok <| .irqack ·)
      else .error .envField := by
  simp only [decodeWith_envWord, decodeEnv, fieldSub_envWord, fieldAddr_envWord, fieldData_envWord]
  cases lineOf (arg.extractLsb' 2 2).toNat (arg.extractLsb' 0 2).toNat <;> rfl

theorem decodeWith_ldframe :
    decodeWith c (envWord 6#4 arg val) =
      if arg.extractLsb' 16 8 = 0#8 ∧ val = 0#8 then .ok (.ldframe (arg.setWidth 16)) else .error .envField := by
  simp [decodeWith, decodeEnv]

theorem decodeWith_sub {sub : BitVec 4} (h : 7 ≤ sub.toNat) :
    decodeWith c (envWord sub arg val) = .error .sub := by
  obtain ⟨n, hn⟩ := Nat.exists_eq_add_of_le' h
  simp only [decodeWith, fieldKind_envWord, decodeEnv, fieldSub_envWord, hn]

end Env

theorem sub_cases (sub : BitVec 4) :
    sub = 0#4 ∨ sub = 1#4 ∨ sub = 2#4 ∨ sub = 3#4 ∨ sub = 4#4 ∨ sub = 5#4 ∨ sub = 6#4 ∨
      7 ≤ sub.toNat := by
  revert sub
  decide

/-! The line of an IRQACK word (R83, R91). -/

theorem lineOf_eq_some {n k : Nat} {l : Line} (h : lineOf n k = some l) : n = l.proc.id ∧ k = l.number := by
  unfold lineOf at h
  split at h <;> cases h <;> exact ⟨rfl, rfl⟩

theorem lineOf_eq_none_iff (n k : Nat) :
    lineOf n k = none ↔ (n, k) ∉ [(0, 0), (1, 0), (1, 1), (2, 0), (2, 1)] := by
  unfold lineOf
  split <;> simp_all

/-! ### The address ranges of one processor and direction lie apart (R86, R88) -/

/-- At most one member of a list meets a condition that no two of them meet together. -/
theorem eq_of_pairwise_exclusive {α : Type} {P : α → Prop} {l : List α}
    (hl : l.Pairwise fun x y => P x → ¬ P y) {x y : α} (hx : x ∈ l) (hy : y ∈ l) (px : P x) (py : P y) :
    x = y := by
  have hsymm : Std.Symm fun x y => P x → ¬ P y := ⟨fun _ _ h py px => h px py⟩
  by_contra hne
  exact hl.forall hx hy hne px py

/-- No address lies in a range of both lists. -/
def rangesApart (gs gs' : List AddrRange) : Bool :=
  gs.all fun g => gs'.all fun g' => decide (g.hi < g'.lo) || decide (g'.hi < g.lo)

theorem not_any_has_of_rangesApart {gs gs' : List AddrRange} {m : Nat} (hapart : rangesApart gs gs' = true)
    (h : gs.any (·.has m) = true) : ¬ gs'.any (·.has m) = true := by
  intro h'
  obtain ⟨g, hg, hm⟩ := List.any_eq_true.mp h
  obtain ⟨g', hg', hm'⟩ := List.any_eq_true.mp h'
  have hgg' := List.all_eq_true.mp (List.all_eq_true.mp hapart g hg) g' hg'
  rw [Bool.or_eq_true, decide_eq_true_iff, decide_eq_true_iff] at hgg'
  rw [AddrRange.has_iff] at hm hm'
  omega

/-- The bus operations of one processor and direction at an address, and with a byte if they write: the rows
of R88 that share a header. -/
def busOps (p : Proc) (write : Bool) (a : BusAddr) (v : Byte) : List Instr :=
  match p, write with
  | .main, false =>
    [.mrdLowram a, .mrdSprite a, .mrdTile a, .mrdPalette a, .mrdDip a, .mrdService a, .mrdLdframe a,
     .mrdLddata a, .mrdLdstatus a, .mrdUndef a, .mrdRom a, .mrdUnmapped a]
  | .main, true =>
    [.mwrLowram a v, .mwrSprite a v, .mwrTile a v, .mwrPalette a v, .mwrSound a v, .mwrCtrl a v,
     .mwrLdcmd a v, .mwrLdsel a v, .mwrUndef a v, .mwrRom a v, .mwrUnmapped a v]
  | .copA, false => [.ardRam a, .ardMbox a, .ardRom a, .ardUnmapped a]
  | .copA, true => [.awrRam a v, .awrUndef a v, .awrRom a v, .awrUnmapped a v]
  | .copB, false => [.brdRam a, .brdUndef a, .brdMbox a, .brdRom a, .brdUnmapped a]
  | .copB, true => [.bwrRam a v, .bwrCtrl a v, .bwrUndef a v, .bwrRom a v, .bwrUnmapped a v]

section BusOps

variable {p : Proc} {write : Bool} {a : BusAddr} {v : Byte} {i j : Instr}

theorem addr?_of_mem_busOps (h : i ∈ busOps p write a v) : i.addr? = some a := by
  have hall : ∀ i ∈ busOps p write a v, i.addr? = some a := by
    cases p <;> cases write <;> simp [busOps, Instr.addr?]
  exact hall i h

theorem wellFormed_of_mem_busOps (h : i ∈ busOps p write a v) :
    i.wellFormed = i.addrRanges.any (·.has (maskAddr a).toNat) := by
  simp only [Instr.wellFormed, addr?_of_mem_busOps h]

theorem encode_of_mem_busOps (hv : write = false → v = 0#8) (h : i ∈ busOps p write a v) :
    encode i = busWord p write a v := by
  have hall : ∀ i ∈ busOps p write a v, encode i = busWord p write a v := by
    cases write with
    | false => rw [hv rfl]; cases p <;> simp [busOps, encode]
    | true => cases p <;> simp [busOps, encode]
  exact hall i h

theorem busOps_rangesApart (p : Proc) (write : Bool) (a : BusAddr) (v : Byte) :
    (busOps p write a v).Pairwise fun i j => rangesApart i.addrRanges j.addrRanges = true := by
  rw [← List.pairwise_map (f := Instr.addrRanges) (R := fun gs gs' => rangesApart gs gs' = true)]
  cases p <;> cases write <;> simp only [busOps, List.map, Instr.addrRanges] <;> decide

/-- At most one operation of a processor and direction is well formed at an address. -/
theorem eq_of_mem_busOps (hi : i ∈ busOps p write a v) (hj : j ∈ busOps p write a v)
    (hwi : i.wellFormed = true) (hwj : j.wellFormed = true) : i = j := by
  have hexcl : (busOps p write a v).Pairwise fun i j => i.wellFormed = true → ¬ j.wellFormed = true := by
    refine (busOps_rangesApart p write a v).imp_of_mem ?_
    intro i j hi hj hapart
    rw [wellFormed_of_mem_busOps hi, wellFormed_of_mem_busOps hj]
    exact not_any_has_of_rangesApart hapart
  exact eq_of_pairwise_exclusive hexcl hi hj hwi hwj

theorem mem_ite {P : Prop} [Decidable P] {l : List Instr} (hi : i ∈ l) (hj : j ∈ l) :
    (if P then i else j) ∈ l :=
  iteInduction (motive := (· ∈ l)) (fun _ => hi) fun _ => hj

theorem wellFormed_ite {P : Prop} [Decidable P] (hi : P → i.wellFormed = true) (hj : ¬ P → j.wellFormed = true) :
    (if P then i else j).wellFormed = true :=
  iteInduction (motive := (Instr.wellFormed · = true)) hi hj

theorem decodeAt_mem_busOps (c : Configuration) (p : Proc) (write : Bool) (a : BusAddr) (v : Byte) :
    decodeAt c p write a v ∈ busOps p write a v := by
  cases p <;> cases write <;>
    simp only [decodeAt, decodeMainRead, decodeMainWrite, decodeARead, decodeAWrite, decodeBRead, decodeBWrite]
  all_goals
    repeat' refine mem_ite ?_ ?_
  all_goals simp [busOps]

theorem wellFormed_of_ranges (ha : i.addr? = some a)
    (h : ∃ g ∈ i.addrRanges, g.lo ≤ (maskAddr a).toNat ∧ (maskAddr a).toNat ≤ g.hi) :
    i.wellFormed = true := by
  simpa only [Instr.wellFormed, ha, List.any_eq_true, AddrRange.has_iff] using h

/-- R86 agrees with R88: a test that succeeds puts the masked address in its row's range, and where every test
fails it lies in the ranges of the unmapped row. -/
theorem decodeAt_wellFormed (p : Proc) (write : Bool) (a : BusAddr) (v : Byte) :
    (decodeAt Config.machine p write a v).wellFormed = true := by
  have hlt := (maskAddr a).isLt
  cases p <;> cases write <;>
    simp only [decodeAt, decodeMainRead, decodeMainWrite, decodeARead, decodeAWrite, decodeBRead, decodeBWrite,
      machine_registers, machine_regions, AddrRange.has_iff, Config.regWinLo, Config.regWinHi]
  all_goals
    repeat' refine wellFormed_ite (fun _ => ?_) fun _ => ?_
  all_goals
    refine wellFormed_of_ranges rfl ?_
    simp only [Instr.addrRanges, List.mem_cons, List.not_mem_nil, or_false, exists_eq_or_imp, exists_eq_left]
    omega

theorem decodeAt_eq_of_mem_busOps (hi : i ∈ busOps p write a v) (hwf : i.wellFormed = true) :
    decodeAt Config.machine p write a v = i :=
  eq_of_mem_busOps (decodeAt_mem_busOps ..) hi (decodeAt_wellFormed ..) hwf

end BusOps

/-! ### Encode, then decode (R80 to R88) -/

theorem decode_encode_of_mem_busOps {p : Proc} {write : Bool} {a : BusAddr} {v : Byte} {i : Instr}
    (hv : write = false → v = 0#8) (hi : i ∈ busOps p write a v) (hwf : i.wellFormed = true) :
    decode (encode i) = .ok i := by
  rw [encode_of_mem_busOps hv hi, decode, decodeWith_busWord _ p write a v hv, decodeAt_eq_of_mem_busOps hi hwf]

theorem decode_encode_read {p : Proc} {a : BusAddr} {i : Instr} (hwf : i.wellFormed = true)
    (hi : i ∈ busOps p false a 0#8) : decode (encode i) = .ok i :=
  decode_encode_of_mem_busOps (fun _ => rfl) hi hwf

theorem decode_encode_write {p : Proc} {a : BusAddr} {v : Byte} {i : Instr} (hwf : i.wellFormed = true)
    (hi : i ∈ busOps p true a v) : decode (encode i) = .ok i :=
  decode_encode_of_mem_busOps (by nofun) hi hwf

/-- Settles O1: a bus operation is the one well-formed operation of its processor, direction and address, so it
is the one the decoder chooses; every other operation's operands are read back from its word. -/
theorem decodeOfEncodeIsTheOperation : Obligations.DecodeOfEncodeIsTheOperation := by
  intro i hwf
  cases i with
  | mrdLowram a | mrdSprite a | mrdTile a | mrdPalette a | mrdDip a | mrdService a | mrdLdframe a | mrdLddata a
  | mrdLdstatus a | mrdUndef a | mrdRom a | mrdUnmapped a =>
    exact decode_encode_read (p := .main) (a := a) hwf (by simp [busOps])
  | mwrLowram a v | mwrSprite a v | mwrTile a v | mwrPalette a v | mwrSound a v | mwrCtrl a v | mwrLdcmd a v
  | mwrLdsel a v | mwrUndef a v | mwrRom a v | mwrUnmapped a v =>
    exact decode_encode_write (p := .main) (a := a) (v := v) hwf (by simp [busOps])
  | ardRam a | ardMbox a | ardRom a | ardUnmapped a =>
    exact decode_encode_read (p := .copA) (a := a) hwf (by simp [busOps])
  | awrRam a v | awrUndef a v | awrRom a v | awrUnmapped a v =>
    exact decode_encode_write (p := .copA) (a := a) (v := v) hwf (by simp [busOps])
  | brdRam a | brdUndef a | brdMbox a | brdRom a | brdUnmapped a =>
    exact decode_encode_read (p := .copB) (a := a) hwf (by simp [busOps])
  | bwrRam a v | bwrCtrl a v | bwrUndef a v | bwrRom a v | bwrUnmapped a v =>
    exact decode_encode_write (p := .copB) (a := a) (v := v) hwf (by simp [busOps])
  | tick | reset | ldreset => rfl
  | dipset bank value => exact decodeWith_dipset Config.machine bank value
  | svcset value => exact decodeWith_svcset Config.machine 0#24 value
  | sigloss n => exact decodeWith_sigloss Config.machine n 0#8
  | irqack l => cases l <;> rfl
  | ldframe f =>
    obtain ⟨hhigh, hlow⟩ := frameArg_fields f
    rw [decode, encode, decodeWith_ldframe, if_pos ⟨hhigh, rfl⟩, hlow]

/-! ### Decode, then encode (R80 to R86, R91) -/

theorem encode_of_decode_busKind {w : OpWord} {i : Instr} (hk : fieldKind w = 0) (h : decode w = .ok i) :
    i.wellFormed = true ∧ encode i = w := by
  obtain hz | ⟨hz, ha⟩ | ⟨p, write, a, v, rfl⟩ := busKind_cases hk
  · cases h.symm.trans (decodeWith_zeroBit _ hk hz)
  · cases h.symm.trans (decodeWith_agent _ hk hz ha)
  · by_cases hv : write = false → v = 0#8
    · cases h.symm.trans (decodeWith_busWord _ p write a v hv)
      exact ⟨decodeAt_wellFormed p write a v, encode_of_mem_busOps hv (decodeAt_mem_busOps ..)⟩
    · obtain ⟨rfl, hdata⟩ := Classical.not_imp.mp hv
      cases h.symm.trans (decodeWith_busWord_readData _ p a hdata)

theorem lineArg_toNat (l : Line) : (lineArg l).toNat = 4 * l.proc.id + l.number := by
  cases l <;> rfl

theorem extractLsb'_eq_zero_iff {arg : BitVec 24} {s n : Nat} :
    arg.extractLsb' s n = 0#n ↔ arg.toNat / 2 ^ s % 2 ^ n = 0 := by
  rw [← BitVec.toNat_inj, BitVec.extractLsb'_toNat, Nat.shiftRight_eq_div_pow, BitVec.toNat_zero]

theorem lineArg_eq {arg : BitVec 24} {l : Line} (hhigh : arg.extractLsb' 4 20 = 0#20)
    (h : lineOf (arg.extractLsb' 2 2).toNat (arg.extractLsb' 0 2).toNat = some l) : lineArg l = arg := by
  have hlt := arg.isLt
  obtain ⟨hproc, hnumber⟩ := lineOf_eq_some h
  rw [BitVec.extractLsb'_toNat, Nat.shiftRight_eq_div_pow] at hproc hnumber
  rw [extractLsb'_eq_zero_iff] at hhigh
  apply BitVec.eq_of_toNat_eq
  rw [lineArg_toNat]
  omega

theorem frameArg_eq {arg : BitVec 24} (hhigh : arg.extractLsb' 16 8 = 0#8) : 0#8 ++ arg.setWidth 16 = arg := by
  have hlt := arg.isLt
  rw [extractLsb'_eq_zero_iff] at hhigh
  apply BitVec.eq_of_toNat_eq
  rw [BitVec.toNat_append, BitVec.toNat_zero, Nat.zero_shiftLeft, Nat.zero_or, BitVec.toNat_setWidth]
  omega

theorem eq_of_ite_eq_ok {ε α : Type} {P : Prop} [Decidable P] {x : Except ε α} {e : ε} {y : α}
    (h : (if P then x else .error e) = .ok y) : P ∧ x = .ok y := by
  by_cases hP : P
  · exact ⟨hP, by rwa [if_pos hP] at h⟩
  · rw [if_neg hP] at h
    cases h

theorem encode_of_decode_envKind {w : OpWord} {i : Instr} (hk : fieldKind w = 2) (h : decode w = .ok i) :
    i.wellFormed = true ∧ encode i = w := by
  rw [decode, eq_envWord hk] at h
  rw [eq_envWord hk]
  generalize w.extractLsb' 32 4 = sub, fieldAddr w = arg, fieldData w = val at h ⊢
  obtain rfl | rfl | rfl | rfl | rfl | rfl | rfl | hsub := sub_cases sub
  · rw [decodeWith_reset] at h
    obtain ⟨⟨rfl, rfl⟩, ⟨⟩⟩ := eq_of_ite_eq_ok h
    exact ⟨rfl, rfl⟩
  · rw [decodeWith_ldreset] at h
    obtain ⟨⟨rfl, rfl⟩, ⟨⟩⟩ := eq_of_ite_eq_ok h
    exact ⟨rfl, rfl⟩
  · cases h.symm.trans (decodeWith_dipset ..)
    exact ⟨rfl, rfl⟩
  · rw [decodeWith_svcset] at h
    obtain ⟨rfl, ⟨⟩⟩ := eq_of_ite_eq_ok h
    exact ⟨rfl, rfl⟩
  · rw [decodeWith_sigloss] at h
    obtain ⟨rfl, ⟨⟩⟩ := eq_of_ite_eq_ok h
    exact ⟨rfl, rfl⟩
  · rw [decodeWith_irqack] at h
    obtain ⟨⟨hhigh, rfl⟩, hline⟩ := eq_of_ite_eq_ok h
    cases hl : lineOf (arg.extractLsb' 2 2).toNat (arg.extractLsb' 0 2).toNat with
    | none => rw [hl] at hline; cases hline
    | some l =>
      rw [hl] at hline
      cases hline
      exact ⟨rfl, by rw [encode, lineArg_eq hhigh hl]⟩
  · rw [decodeWith_ldframe] at h
    obtain ⟨⟨hhigh, rfl⟩, ⟨⟩⟩ := eq_of_ite_eq_ok h
    exact ⟨rfl, by rw [encode, frameArg_eq hhigh]⟩
  · cases h.symm.trans (decodeWith_sub _ _ _ hsub)

/-- Settles O2: a word of each kind that decodes is the encoder's word of its own fields. -/
theorem encodeOfDecodeIsTheWord : Obligations.EncodeOfDecodeIsTheWord := by
  intro w i h
  obtain hk | hk | hk | hk := kind_cases w
  · exact encode_of_decode_busKind hk h
  · rw [decode, decodeWith_tick _ hk] at h
    obtain ⟨hrest, ⟨⟩⟩ := eq_of_ite_eq_ok h
    exact ⟨rfl, (eq_tickWord hk hrest).symm⟩
  · exact encode_of_decode_envKind hk h
  · cases h.symm.trans (decodeWith_kind _ hk)

/-! ### The rows of the opcode table lie apart (R89) -/

/-- Two rows ask for different values of a bit both masks test, or for addresses in ranges that lie apart. -/
def OpRow.apart (r r' : OpRow) : Bool :=
  r.pattern &&& r'.mask != r'.pattern &&& r.mask ||
    (!r.ranges.isEmpty && !r'.ranges.isEmpty && rangesApart r.ranges r'.ranges)

theorem rowMatches_iff (r : OpRow) (w : OpWord) :
    rowMatches r w = true ↔ w &&& r.mask = r.pattern ∧
      (r.ranges = [] ∨ r.ranges.any (·.has (w.extractLsb' 8 16).toNat) = true) ∧
      (r.pairs = [] ∨ ((w.extractLsb' 10 2).toNat, (w.extractLsb' 8 2).toNat) ∈ r.pairs) := by
  simp only [rowMatches, Bool.and_eq_true, Bool.or_eq_true, beq_iff_eq, List.isEmpty_iff,
    List.contains_iff_mem, and_assoc]

theorem not_rowMatches_of_apart {r r' : OpRow} {w : OpWord} (hapart : r.apart r' = true)
    (h : rowMatches r w = true) : ¬ rowMatches r' w = true := by
  intro h'
  obtain ⟨hbits, hrange, -⟩ := (rowMatches_iff r w).mp h
  obtain ⟨hbits', hrange', -⟩ := (rowMatches_iff r' w).mp h'
  simp only [OpRow.apart, Bool.or_eq_true, Bool.and_eq_true, bne_iff_ne, Bool.not_eq_true',
    List.isEmpty_eq_false_iff] at hapart
  obtain hne | ⟨⟨hr, hr'⟩, hranges⟩ := hapart
  · apply hne
    rw [← hbits, ← hbits', BitVec.and_assoc, BitVec.and_assoc, BitVec.and_comm r.mask]
  · exact not_any_has_of_rangesApart hranges (hrange.resolve_left hr) (hrange'.resolve_left hr')

theorem opTable_pairwise_apart : opTable.Pairwise fun r r' => r.apart r' = true := by
  decide

/-- Settles O4: rows that lie apart match no word together, and any two rows of the table lie apart. -/
theorem opcodeTableRowsNeverOverlap : Obligations.OpcodeTableRowsNeverOverlap :=
  fun w _ _ hr hr' h h' => eq_of_pairwise_exclusive (P := (rowMatches · w = true))
    (opTable_pairwise_apart.imp not_rowMatches_of_apart) hr hr' h h'

/-! ### A word that a row matches decodes (R86, R89) -/

/-- Where a mask is all ones, a word that matches under it has the pattern's bits. -/
theorem extractLsb'_eq_of_and_eq {w m pat : OpWord} {s n : Nat} (h : w &&& m = pat)
    (hm : m.extractLsb' s n = BitVec.allOnes n) : w.extractLsb' s n = pat.extractLsb' s n := by
  rw [← h, BitVec.extractLsb'_and, hm, BitVec.and_allOnes]

theorem exists_decode_busWord {p : Proc} {write : Bool} {a : BusAddr} {v : Byte} (hv : write = false → v = 0#8) :
    ∃ i, decode (busWord p write a v) = .ok i :=
  ⟨_, decodeWith_busWord Config.machine p write a v hv⟩

theorem fieldAddr_extractLsb' (w : OpWord) {s n : Nat} (h : s + n ≤ 24) :
    (fieldAddr w).extractLsb' s n = w.extractLsb' (8 + s) n := by
  apply BitVec.eq_of_getLsbD_eq
  intro i hi
  have hsi : s + i < 24 := by omega
  simp only [fieldAddr, BitVec.getLsbD_extractLsb', hi, hsi, decide_true, Bool.true_and, Nat.add_assoc]

/-- Every mask tests the kind and bits 35 to 32. -/
theorem opTable_masks : ∀ r ∈ opTable,
    r.mask.extractLsb' 36 4 = BitVec.allOnes 4 ∧ r.mask.extractLsb' 32 4 = BitVec.allOnes 4 := by
  decide

theorem fieldKind_of_rowMatches {r : OpRow} {w : OpWord} (hr : r ∈ opTable) (h : rowMatches r w = true) :
    fieldKind w = fieldKind r.pattern := by
  obtain ⟨hbits, -⟩ := (rowMatches_iff r w).mp h
  exact congrArg BitVec.toNat (extractLsb'_eq_of_and_eq hbits (opTable_masks r hr).1)

theorem fieldSub_of_rowMatches {r : OpRow} {w : OpWord} (hr : r ∈ opTable) (h : rowMatches r w = true) :
    fieldSub w = fieldSub r.pattern := by
  obtain ⟨hbits, -⟩ := (rowMatches_iff r w).mp h
  exact congrArg BitVec.toNat (extractLsb'_eq_of_and_eq hbits (opTable_masks r hr).2)

/-- A bus row's pattern is the bus word with address and byte 0, and a read row tests the byte. -/
theorem busRows_pattern : ∀ r ∈ rowsMainReads ++ rowsMainWrites ++ rowsCopA ++ rowsCopB,
    ∃ x ∈ [(Proc.main, false), (.main, true), (.copA, false), (.copA, true), (.copB, false), (.copB, true)],
      r.pattern = busWord x.1 x.2 0#24 0#8 ∧ (x.2 = false → r.mask.extractLsb' 0 8 = BitVec.allOnes 8) := by
  decide

theorem exists_decode_of_busRow {r : OpRow} {w : OpWord}
    (hr : r ∈ rowsMainReads ++ rowsMainWrites ++ rowsCopA ++ rowsCopB) (h : rowMatches r w = true) :
    ∃ i, decode w = .ok i := by
  have hmem : r ∈ opTable := List.mem_append_left rowsEnv hr
  have hk := fieldKind_of_rowMatches hmem h
  have hs := fieldSub_of_rowMatches hmem h
  obtain ⟨hbits, -⟩ := (rowMatches_iff r w).mp h
  obtain ⟨⟨p, write⟩, -, hpat, hmask⟩ := busRows_pattern r hr
  rw [hpat] at hk hs hbits
  have hv (hread : write = false) : fieldData w = 0#8 :=
    (extractLsb'_eq_of_and_eq hbits (hmask hread)).trans (fieldData_busWord p write 0#24 0#8)
  rw [eq_busWord_of_head (hk.trans (fieldKind_busWord ..)) (hs.trans (fieldSub_busWord ..))]
  exact exists_decode_busWord hv

theorem exists_decode_irqack {arg : BitVec 24} (hhigh : arg.extractLsb' 4 20 = 0#20)
    (hpair : ((arg.extractLsb' 2 2).toNat, (arg.extractLsb' 0 2).toNat) ∈ [(0, 0), (1, 0), (1, 1), (2, 0), (2, 1)]) :
    ∃ i, decode (envWord 5#4 arg 0#8) = .ok i := by
  obtain ⟨l, hl⟩ : ∃ l, lineOf (arg.extractLsb' 2 2).toNat (arg.extractLsb' 0 2).toNat = some l :=
    Option.ne_none_iff_exists'.mp fun hnone => (lineOf_eq_none_iff _ _).mp hnone hpair
  refine ⟨.irqack l, ?_⟩
  rw [decode, decodeWith_irqack, if_pos ⟨hhigh, rfl⟩, hl]
  rfl

theorem exists_decode_of_envRow {r : OpRow} {w : OpWord} (hr : r ∈ rowsEnv) (h : rowMatches r w = true) :
    ∃ i, decode w = .ok i := by
  have hmem : r ∈ opTable := List.mem_append_right _ hr
  have hk := fieldKind_of_rowMatches hmem h
  have hs := fieldSub_of_rowMatches hmem h
  obtain ⟨hbits, -, hpairs⟩ := (rowMatches_iff r w).mp h
  simp only [rowsEnv, List.mem_cons, List.not_mem_nil, or_false] at hr
  obtain rfl | rfl | rfl | rfl | rfl | rfl | rfl | rfl := hr
  case inl | inr.inl | inr.inr.inl =>
    obtain rfl := BitVec.and_allOnes.symm.trans hbits
    exact ⟨_, rfl⟩
  · rw [eq_envWord_of_head (sub := 2#4) hk hs]
    exact ⟨_, decodeWith_dipset ..⟩
  · have harg : fieldAddr w = 0#24 := extractLsb'_eq_of_and_eq hbits (by decide)
    rw [eq_envWord_of_head (sub := 3#4) hk hs]
    exact ⟨_, (decodeWith_svcset ..).trans (if_pos harg)⟩
  · have hval : fieldData w = 0#8 := extractLsb'_eq_of_and_eq hbits (by decide)
    rw [eq_envWord_of_head (sub := 4#4) hk hs]
    exact ⟨_, (decodeWith_sigloss ..).trans (if_pos hval)⟩
  · have hval : fieldData w = 0#8 := extractLsb'_eq_of_and_eq hbits (by decide)
    have hhigh : (fieldAddr w).extractLsb' 4 20 = 0#20 := by
      rw [fieldAddr_extractLsb' w (by decide)]
      exact extractLsb'_eq_of_and_eq hbits (by decide)
    have hpair := hpairs.resolve_left (by simp)
    rw [← fieldAddr_extractLsb' w (s := 2) (by decide), ← fieldAddr_extractLsb' w (s := 0) (by decide)] at hpair
    rw [eq_envWord_of_head (sub := 5#4) hk hs, hval]
    exact exists_decode_irqack hhigh hpair
  · have hval : fieldData w = 0#8 := extractLsb'_eq_of_and_eq hbits (by decide)
    have hhigh : (fieldAddr w).extractLsb' 16 8 = 0#8 := by
      rw [fieldAddr_extractLsb' w (by decide)]
      exact extractLsb'_eq_of_and_eq hbits (by decide)
    rw [eq_envWord_of_head (sub := 6#4) hk hs]
    exact ⟨_, (decodeWith_ldframe ..).trans (if_pos ⟨hhigh, hval⟩)⟩

theorem exists_decode_of_rowMatches {r : OpRow} {w : OpWord} (hr : r ∈ opTable) (h : rowMatches r w = true) :
    ∃ i, decode w = .ok i :=
  (List.mem_append.mp hr).elim (exists_decode_of_busRow · h) (exists_decode_of_envRow · h)

section TableRow

open Laws.TableRow

/-- The laws of the opcode table, operation by operation. -/
theorem exists_row_of_wellFormed : ∀ i, Statement i
  | .mrdLowram addr => mrdLowram addr
  | .mrdSprite addr => mrdSprite addr
  | .mrdTile addr => mrdTile addr
  | .mrdPalette addr => mrdPalette addr
  | .mrdDip addr => mrdDip addr
  | .mrdService addr => mrdService addr
  | .mrdLdframe addr => mrdLdframe addr
  | .mrdLddata addr => mrdLddata addr
  | .mrdLdstatus addr => mrdLdstatus addr
  | .mrdUndef addr => mrdUndef addr
  | .mrdRom addr => mrdRom addr
  | .mrdUnmapped addr => mrdUnmapped addr
  | .mwrLowram addr v => mwrLowram addr v
  | .mwrSprite addr v => mwrSprite addr v
  | .mwrTile addr v => mwrTile addr v
  | .mwrPalette addr v => mwrPalette addr v
  | .mwrSound addr v => mwrSound addr v
  | .mwrCtrl addr v => mwrCtrl addr v
  | .mwrLdcmd addr v => mwrLdcmd addr v
  | .mwrLdsel addr v => mwrLdsel addr v
  | .mwrUndef addr v => mwrUndef addr v
  | .mwrRom addr v => mwrRom addr v
  | .mwrUnmapped addr v => mwrUnmapped addr v
  | .ardRam addr => ardRam addr
  | .ardMbox addr => ardMbox addr
  | .ardRom addr => ardRom addr
  | .ardUnmapped addr => ardUnmapped addr
  | .awrRam addr v => awrRam addr v
  | .awrUndef addr v => awrUndef addr v
  | .awrRom addr v => awrRom addr v
  | .awrUnmapped addr v => awrUnmapped addr v
  | .brdRam addr => brdRam addr
  | .brdUndef addr => brdUndef addr
  | .brdMbox addr => brdMbox addr
  | .brdRom addr => brdRom addr
  | .brdUnmapped addr => brdUnmapped addr
  | .bwrRam addr v => bwrRam addr v
  | .bwrCtrl addr v => bwrCtrl addr v
  | .bwrUndef addr v => bwrUndef addr v
  | .bwrRom addr v => bwrRom addr v
  | .bwrUnmapped addr v => bwrUnmapped addr v
  | .tick => tick
  | .reset => reset
  | .ldreset => ldreset
  | .dipset bank value => dipset bank value
  | .svcset value => svcset value
  | .sigloss n => sigloss n
  | .irqack line => irqack line
  | .ldframe f => ldframe f

end TableRow

theorem tableMnemonic_eq_of_rowMatches {r : OpRow} {w : OpWord} (hr : r ∈ opTable) (h : rowMatches r w = true) :
    tableMnemonic w = some r.mnemonic := by
  have hsome : (opTable.find? (rowMatches · w)).isSome = true := List.find?_isSome.mpr ⟨r, hr, h⟩
  obtain ⟨r', hfind⟩ := Option.isSome_iff_exists.mp hsome
  have hmatch : rowMatches r' w = true := List.find?_some (p := (rowMatches · w)) hfind
  have hr' : r' = r := opcodeTableRowsNeverOverlap w r' r (List.mem_of_find?_eq_some hfind) hr hmatch h
  rw [tableMnemonic, hfind, hr', Option.map_some]

/-- Settles O3: a word that decodes is its operation's word, which the row of the operation's mnemonic matches,
and no other row does; a reserved word is matched by no row, since a word that a row matches decodes. -/
theorem decoderAgreesWithTheOpcodeTable : Obligations.DecoderAgreesWithTheOpcodeTable := by
  intro w
  cases hw : decode w with
  | ok i =>
    obtain ⟨hwf, henc⟩ := encodeOfDecodeIsTheWord w i hw
    obtain ⟨r, hr, hname, hmatch⟩ := exists_row_of_wellFormed i hwf
    rw [henc] at hmatch
    rw [tableMnemonic_eq_of_rowMatches hr hmatch, hname, decodedMnemonic, hw]
  | error why =>
    have hnone : opTable.find? (rowMatches · w) = none := by
      refine List.find?_eq_none.mpr fun r hr hmatch => ?_
      obtain ⟨i, hi⟩ := exists_decode_of_rowMatches hr hmatch
      cases hw.symm.trans hi
    rw [tableMnemonic, hnone, decodedMnemonic, hw, Option.map_none]

/-! ### The reserved words (R91) -/

theorem exists_error_busKind_iff {w : OpWord} (hk : fieldKind w = 0) :
    (∃ why, decode w = .error why) ↔
      fieldAgent w = 3 ∨ fieldZero w = true ∨ (fieldRw w = false ∧ fieldData w ≠ 0#8) := by
  obtain hz | ⟨hz, ha⟩ | ⟨p, write, a, v, rfl⟩ := busKind_cases hk
  · simp [decode, decodeWith_zeroBit _ hk hz, hz]
  · simp [decode, decodeWith_agent _ hk hz ha, ha]
  · have hp : p.id ≠ 3 := by cases p <;> decide
    by_cases hv : write = false → v = 0#8
    · simpa [decode, decodeWith_busWord _ p write a v hv, hp] using hv
    · obtain ⟨rfl, hdata⟩ := Classical.not_imp.mp hv
      simp [decode, decodeWith_busWord_readData _ p a hdata, hdata]

theorem exists_error_tickKind_iff {w : OpWord} (hk : fieldKind w = 1) :
    (∃ why, decode w = .error why) ↔ fieldTickRest w ≠ 0#36 := by
  by_cases hrest : fieldTickRest w = 0#36 <;> simp [decode, decodeWith_tick _ hk, hrest]

theorem exists_eq_error_ite_iff {ε α : Type} {P : Prop} [Decidable P] {x : Except ε α} {e : ε} :
    (∃ why, (if P then x else .error e) = .error why) ↔ ¬ P ∨ ∃ why, x = .error why := by
  by_cases hP : P <;> simp [hP]

theorem exists_irqPair_iff (o : Option Line) :
    (∃ why, o.elim (.error .irqPair) (.ok <| .irqack ·) = (.error why : Except Reserved Instr)) ↔ o = none := by
  cases o <;> simp

theorem exists_error_envKind_iff {w : OpWord} (hk : fieldKind w = 2) :
    (∃ why, decode w = .error why) ↔
      7 ≤ fieldSub w ∨
      (fieldSub w = 0 ∧ (fieldAddr w ≠ 0#24 ∨ fieldData w ≠ 0#8)) ∨
      (fieldSub w = 1 ∧ (fieldAddr w ≠ 0#24 ∨ fieldData w ≠ 0#8)) ∨
      (fieldSub w = 3 ∧ fieldAddr w ≠ 0#24) ∨
      (fieldSub w = 4 ∧ fieldData w ≠ 0#8) ∨
      (fieldSub w = 5 ∧ ((fieldAddr w).extractLsb' 4 20 ≠ 0#20 ∨ fieldData w ≠ 0#8 ∨
        (((fieldAddr w).extractLsb' 2 2).toNat, ((fieldAddr w).extractLsb' 0 2).toNat) ∉
          [(0, 0), (1, 0), (1, 1), (2, 0), (2, 1)])) ∨
      (fieldSub w = 6 ∧ ((fieldAddr w).extractLsb' 16 8 ≠ 0#8 ∨ fieldData w ≠ 0#8)) := by
  rw [eq_envWord hk, decode]
  generalize w.extractLsb' 32 4 = sub, fieldAddr w = arg, fieldData w = val
  simp only [fieldSub_envWord, fieldAddr_envWord, fieldData_envWord]
  obtain rfl | rfl | rfl | rfl | rfl | rfl | rfl | hsub := sub_cases sub
  · simp [decodeWith_reset, exists_eq_error_ite_iff, ← not_and_or]
  · simp [decodeWith_ldreset, exists_eq_error_ite_iff, ← not_and_or]
  · simp [decodeWith_dipset]
  · simp [decodeWith_svcset, exists_eq_error_ite_iff]
  · simp [decodeWith_sigloss, exists_eq_error_ite_iff]
  · rw [decodeWith_irqack, exists_eq_error_ite_iff, exists_irqPair_iff, lineOf_eq_none_iff, not_and_or, or_assoc]
    simp
  · simp [decodeWith_ldframe, exists_eq_error_ite_iff, ← not_and_or]
  · simp [decodeWith_sub _ _ _ hsub, hsub]

theorem fieldData_ne_zero_iff (w : OpWord) : fieldData w ≠ 0#8 ↔ w.toNat % 2 ^ 8 ≠ 0 := by
  rw [Ne, ← BitVec.toNat_inj, fieldData_toNat, BitVec.toNat_zero]

theorem fieldAddr_ne_zero_iff (w : OpWord) : fieldAddr w ≠ 0#24 ↔ w.toNat / 2 ^ 8 % 2 ^ 24 ≠ 0 := by
  rw [Ne, ← BitVec.toNat_inj, fieldAddr_toNat, BitVec.toNat_zero]

theorem fieldTickRest_ne_zero_iff (w : OpWord) : fieldTickRest w ≠ 0#36 ↔ w.toNat % 2 ^ 36 ≠ 0 := by
  rw [Ne, ← BitVec.toNat_inj, fieldTickRest_toNat, BitVec.toNat_zero]

/-- Settles O5: the reserved words of each kind, their fields read as numbers. -/
theorem reservedWordsAreTheListedOnes : Obligations.ReservedWordsAreTheListedOnes := by
  intro w n kind agent isWrite sub arg low
  have hkind : fieldKind w = kind := fieldKind_eq w
  have hagent : fieldAgent w = agent := fieldAgent_eq w
  have hzero : fieldZero w = true ↔ n / 2 ^ 32 % 2 = 1 := fieldZero_iff w
  have hwrite : fieldRw w = false ↔ ¬ isWrite := Bool.eq_false_iff.trans (fieldRw_iff w).not
  have hsub : fieldSub w = sub := fieldSub_eq w
  have harg : (fieldAddr w).toNat = arg := fieldAddr_toNat w
  have hlow : fieldData w ≠ 0#8 ↔ low ≠ 0 := fieldData_ne_zero_iff w
  have harg0 : fieldAddr w ≠ 0#24 ↔ arg ≠ 0 := fieldAddr_ne_zero_iff w
  have hrest : fieldTickRest w ≠ 0#36 ↔ n % 2 ^ 36 ≠ 0 := fieldTickRest_ne_zero_iff w
  have hlt := (fieldAddr w).isLt
  have hhigh : (fieldAddr w).extractLsb' 4 20 ≠ 0#20 ↔ arg / 16 ≠ 0 := by
    rw [Ne, extractLsb'_eq_zero_iff]
    omega
  have hframe : (fieldAddr w).extractLsb' 16 8 ≠ 0#8 ↔ arg / 2 ^ 16 ≠ 0 := by
    rw [Ne, extractLsb'_eq_zero_iff]
    omega
  have hpair : (((fieldAddr w).extractLsb' 2 2).toNat, ((fieldAddr w).extractLsb' 0 2).toNat) =
      (arg / 4 % 4, arg % 4) := by
    rw [BitVec.extractLsb'_toNat, BitVec.extractLsb'_toNat, Nat.shiftRight_eq_div_pow, Nat.shiftRight_zero, harg]
  obtain hk | hk | hk | hk := kind_cases w
  · rw [exists_error_busKind_iff hk, hagent, hzero, hwrite, hlow]
    clear_value kind agent isWrite sub arg low
    simp [← hkind, hk]
  · rw [exists_error_tickKind_iff hk, hrest]
    clear_value kind agent isWrite sub arg low
    simp [← hkind, hk]
  · rw [exists_error_envKind_iff hk, hsub, harg0, hlow, hhigh, hframe, hpair]
    clear_value kind agent isWrite sub arg low
    simp [← hkind, hk]
  · have herror : ∃ why, decode w = .error why := ⟨.kind, decodeWith_kind _ hk⟩
    exact iff_of_true herror (.inl (hkind ▸ hk))

/-- Settles O7: nine closed words. -/
theorem exampleWordsDecode : Obligations.ExampleWordsDecode := by
  unfold Obligations.ExampleWordsDecode
  decide

end Sys2Proof

/-! PROOFS of the family 40_router.md: stored reads and writes, the tile and palette change tests, and the
fallbacks. Which operation a bus word decodes to follows from the round trip (`decodeOfEncodeIsTheOperation`)
once the masked address is known to lie in the operation's ranges; what the operation does is the lemma of the
shared operation it calls. -/

namespace Sys2Proof

/-! ### The word of a bus operation decodes to it inside its ranges (R86, R88) -/

theorem decode_of_ranges {i : Instr} {w : OpWord} {a : BusAddr} (hw : encode i = w) (ha : i.addr? = some a)
    (h : i.addrRanges.any (·.has (maskAddr a).toNat) = true) : decode w = .ok i := by
  have hwf : i.wellFormed = true := by simpa only [Instr.wellFormed, ha] using h
  rw [← hw]
  exact decodeOfEncodeIsTheOperation i hwf

theorem decode_of_region {i : Instr} {w : OpWord} {a : BusAddr} {r : AddrRange} (hw : encode i = w)
    (ha : i.addr? = some a) (hr : i.addrRanges = [r]) (h : r.has (maskAddr a).toNat = true) :
    decode w = .ok i :=
  decode_of_ranges hw ha (by simpa only [hr, List.any_cons, List.any_nil, Bool.or_false] using h)

theorem decode_of_register {i : Instr} {w : OpWord} {a : BusAddr} {reg : Nat} (hw : encode i = w)
    (ha : i.addr? = some a) (hr : i.addrRanges = [⟨reg, reg⟩]) (h : (maskAddr a).toNat = reg) :
    decode w = .ok i :=
  decode_of_region hw ha hr ((AddrRange.has_iff _ _).mpr ⟨h.ge, h.le⟩)

/-! ### Where the fallbacks lie (R88): the ranges the registers and the regions leave over -/

theorem AddrRange.has_eq_false_iff (r : AddrRange) (m : Nat) : r.has m = false ↔ m < r.lo ∨ r.hi < m := by
  rw [← Bool.not_eq_true, AddrRange.has_iff]
  omega

section Fallbacks

variable {m : Nat}

/-- The window addresses with no read register. -/
theorem undefReadRange_of_window (hwin : 0x5800 ≤ m ∧ m ≤ 0x5807)
    (hreg : m ∉ [Config.machine.regDip, Config.machine.regService, Config.machine.regLdFrame,
      Config.machine.regLdData, Config.machine.regLdStatus]) :
    [AddrRange.mk 0x5802 0x5804].any (·.has m) = true := by
  simp only [machine_registers, List.mem_cons, List.not_mem_nil, or_false] at hreg
  simp only [List.any_cons, List.any_nil, Bool.or_false, AddrRange.has_iff]
  omega

/-- The window addresses with no write register. -/
theorem undefWriteRange_of_window (hwin : 0x5800 ≤ m ∧ m ≤ 0x5807)
    (hreg : m ∉ [Config.machine.regSound, Config.machine.regCtrl, Config.machine.regLdCmd,
      Config.machine.regLdSel]) :
    [AddrRange.mk 0x5800 0x5801, ⟨0x5804, 0x5804⟩, ⟨0x5807, 0x5807⟩].any (·.has m) = true := by
  simp only [machine_registers, List.mem_cons, List.not_mem_nil, or_false] at hreg
  simp only [List.any_cons, List.any_nil, Bool.or_false, Bool.or_eq_true, AddrRange.has_iff]
  omega

/-- The main processor's gaps, for reads and writes alike. -/
theorem mainUnmappedRange_of_gap (hlt : m < 65536) (hwin : ¬ (0x5800 ≤ m ∧ m ≤ 0x5807))
    (hreg : (Config.machine.lowRam.has m || Config.machine.sprite.has m || Config.machine.tile.has m ||
      Config.machine.palette.has m || Config.machine.rom.has m) = false) :
    [AddrRange.mk 0x1000 0x2FFF, ⟨0x5020, 0x57FF⟩, ⟨0x5808, 0x5FFF⟩].any (·.has m) = true := by
  simp only [Bool.or_eq_false_iff, AddrRange.has_eq_false_iff, machine_regions] at hreg
  simp only [List.any_cons, List.any_nil, Bool.or_false, Bool.or_eq_true, AddrRange.has_iff]
  omega

/-- A coprocessor address outside its RAM and ROM lies between the two. -/
theorem copOther_bounds (hlt : m < 65536)
    (hcop : Config.machine.copRam.has m = false ∧ Config.machine.copRom.has m = false) :
    0x0400 ≤ m ∧ m ≤ 0xBFFF := by
  simp only [AddrRange.has_eq_false_iff, machine_regions] at hcop
  omega

/-- Coprocessor A's gaps: all between RAM and ROM but the mailbox. -/
theorem copAUnmappedRange_of_gap (hlt : m < 65536)
    (hcop : Config.machine.copRam.has m = false ∧ Config.machine.copRom.has m = false)
    (hmbox : m ≠ Config.machine.copAMbox) :
    [AddrRange.mk 0x0400 0x7FFF, ⟨0x8001, 0xBFFF⟩].any (·.has m) = true := by
  have hbounds := copOther_bounds hlt hcop
  simp only [machine_registers] at hmbox
  simp only [List.any_cons, List.any_nil, Bool.or_false, Bool.or_eq_true, AddrRange.has_iff]
  omega

/-- Coprocessor B's gaps: all between RAM and ROM but the mailbox and the control register. -/
theorem copBUnmappedRange_of_gap (hlt : m < 65536)
    (hcop : Config.machine.copRam.has m = false ∧ Config.machine.copRom.has m = false)
    (hmbox : m ≠ Config.machine.copBMbox) (hctrl : m ≠ Config.machine.copBCtrl) :
    [AddrRange.mk 0x0400 0x7FFF, ⟨0x8001, 0x9FFF⟩, ⟨0xA001, 0xBFFF⟩].any (·.has m) = true := by
  have hbounds := copOther_bounds hlt hcop
  simp only [machine_registers] at hmbox hctrl
  simp only [List.any_cons, List.any_nil, Bool.or_false, Bool.or_eq_true, AddrRange.has_iff]
  omega

end Fallbacks

end Sys2Proof

namespace Sys2Proof.Machine

/-! ### Stored reads and writes (R111 to R138) -/

/-- Settles O19: each of these operations is the shared read of a stored byte. -/
theorem storedReadsReturnTheImageByte : Obligations.StoredReadsReturnTheImageByte := by
  intro addr s
  have hread (p : Proc) := next_congr (readStored_eq Config.machine p addr s)
  exact ⟨decode_of_region rfl rfl rfl, hread .main, decode_of_region rfl rfl rfl, hread .main,
    decode_of_region rfl rfl rfl, hread .main, decode_of_region rfl rfl rfl, hread .main,
    decode_of_region rfl rfl rfl, hread .main, decode_of_region rfl rfl rfl, hread .copA,
    decode_of_region rfl rfl rfl, hread .copA, decode_of_region rfl rfl rfl, hread .copB,
    decode_of_region rfl rfl rfl, hread .copB⟩

/-- Settles O20: each of these operations is the shared RAM write, on its own processor's image. -/
theorem ramWritesStoreOneByte : Obligations.RamWritesStoreOneByte := by
  intro addr v s hwf
  exact ⟨⟨decode_of_region rfl rfl rfl, _, rfl, writeStored_spec (hwf .main) addr v⟩,
    ⟨decode_of_region rfl rfl rfl, _, rfl, writeStored_spec (hwf .main) addr v⟩,
    ⟨decode_of_region rfl rfl rfl, _, rfl, writeStored_spec (hwf .copA) addr v⟩,
    ⟨decode_of_region rfl rfl rfl, _, rfl, writeStored_spec (hwf .copB) addr v⟩⟩

/-- Settles O21: each of these operations is the shared ROM write, on its own processor's image. -/
theorem romWritesStoreAndAreLogged : Obligations.RomWritesStoreAndAreLogged := by
  intro addr v s hwf
  exact ⟨⟨decode_of_region rfl rfl rfl, _, rfl, writeRom_spec (hwf .main) addr v⟩,
    ⟨decode_of_region rfl rfl rfl, _, rfl, writeRom_spec (hwf .copA) addr v⟩,
    ⟨decode_of_region rfl rfl rfl, _, rfl, writeRom_spec (hwf .copB) addr v⟩, rfl⟩

/-! ### Change detection (R120, R121) -/

/-- A tile write is a RAM write that also sets the flag where the byte changes. -/
theorem writeTile_eq (c : Configuration) (addr : BusAddr) (v : Byte) (s : State) :
    writeTile c addr v s =
      { writeStored c .main addr v s with
          overlayDirty := s.overlayDirty || decide (readByte c .main (maskAddr addr).toNat s ≠ v) } := by
  obtain ⟨hv, htile⟩ | ⟨hv, htile⟩ := writeTile_cases c addr v s
  · simp only [htile, hv, ne_eq, not_true_eq_false, decide_false, Bool.or_false]
    rfl
  · simp only [htile, hv, ne_eq, not_false_eq_true, decide_true, Bool.or_true]

/-- A palette write is a RAM write that also sets the flag where the byte changes. -/
theorem writePalette_eq (c : Configuration) (addr : BusAddr) (v : Byte) (s : State) :
    writePalette c addr v s =
      { writeStored c .main addr v s with
          paletteDirty := s.paletteDirty || decide (readByte c .main (maskAddr addr).toNat s ≠ v) } := by
  obtain ⟨hv, hpal⟩ | ⟨hv, hpal⟩ := writePalette_cases c addr v s
  · simp only [hpal, hv, ne_eq, not_true_eq_false, decide_false, Bool.or_false]
    rfl
  · simp only [hpal, hv, ne_eq, not_false_eq_true, decide_true, Bool.or_true]

/-- Settles O22: both writes are the RAM write with one flag set on top, which no byte of the image sees. -/
theorem tileAndPaletteWritesDetectChange : Obligations.TileAndPaletteWritesDetectChange := by
  intro addr v s hwf
  obtain ⟨hsame, hother, -⟩ := writeStored_spec hwf addr v
  exact ⟨decode_of_region rfl rfl rfl, decode_of_region rfl rfl rfl,
    ⟨_, next_congr (writeTile_eq Config.machine addr v s), hsame, hother, rfl⟩,
    ⟨_, next_congr (writePalette_eq Config.machine addr v s), hsame, hother, rfl⟩⟩

/-! ### Fallbacks (R114, R115, R124, R125, R128, R131, R132, R135, R136, R139, R140) -/

/-- Settles O24: the addresses of each operation are its ranges, and each operation is the shared fallback
read. -/
theorem unmappedReadsReturnTheStableDefault : Obligations.UnmappedReadsReturnTheStableDefault := by
  intro addr s
  have hlt : (maskAddr addr).toNat < 65536 := (maskAddr addr).isLt
  have hread (p : Proc) := next_congr (readUnmapped_eq Config.machine p addr s)
  exact ⟨fun hwin hreg => decode_of_ranges rfl rfl (undefReadRange_of_window hwin hreg), hread .main,
    fun hwin hreg => decode_of_ranges rfl rfl (mainUnmappedRange_of_gap hlt hwin hreg), hread .main,
    fun hcop hmbox => decode_of_ranges rfl rfl (copAUnmappedRange_of_gap hlt hcop hmbox), hread .copA,
    decode_of_register rfl rfl rfl, hread .copB,
    fun hcop hmbox hctrl => decode_of_ranges rfl rfl (copBUnmappedRange_of_gap hlt hcop hmbox hctrl),
    hread .copB, rfl⟩

/-- Settles O25: the addresses of each operation are its ranges, and each operation is the shared fallback
write. -/
theorem unmappedWritesAreDiscarded : Obligations.UnmappedWritesAreDiscarded := by
  intro addr v s
  have hlt : (maskAddr addr).toNat < 65536 := (maskAddr addr).isLt
  have hwrite (p : Proc) := next_congr (writeUnmapped_eq p addr v s)
  exact ⟨fun hwin hreg => decode_of_ranges rfl rfl (undefWriteRange_of_window hwin hreg), hwrite .main,
    fun hwin hreg => decode_of_ranges rfl rfl (mainUnmappedRange_of_gap hlt hwin hreg), hwrite .main,
    decode_of_register rfl rfl rfl, hwrite .copA,
    fun hcop hmbox => decode_of_ranges rfl rfl (copAUnmappedRange_of_gap hlt hcop hmbox), hwrite .copA,
    decode_of_register rfl rfl rfl, hwrite .copB,
    fun hcop hmbox hctrl => decode_of_ranges rfl rfl (copBUnmappedRange_of_gap hlt hcop hmbox hctrl),
    hwrite .copB, rfl⟩

end Sys2Proof.Machine

/-! PROOFS of the family 41_scheduler.md: the field tick (R150 to R157), the signal-loss counter (R160), the
input latches (R159, R206), the line acknowledgement (R161) and coprocessor B's enable (R162). The one idea:
`tickAll_eq` writes the state after the six steps of TICK as one record; what a tick does to the counter, to
the enable and to the two dirty flags is then read off it. -/

namespace Sys2Proof.Machine

/-! ### The six steps of TICK as one record (R150 to R157, R170) -/

theorem tickAll_eq (c : Configuration) (s : State) :
    tickAll c s =
      { s with
        paletteDirty := false
        overlayDirty := false
        sigloss := s.sigloss - 1
        irqMainPeriodic := true
        baseOffset := if qualifies s.ldFrame s.prevFrame then some (packetBase (packetIndex s.ldFrame))
          else s.baseOffset
        position := if qualifies s.ldFrame s.prevFrame then 0 else s.position
        audioReady := if qualifies s.ldFrame s.prevFrame then true
          else if reTick s.ldFrame s.prevFrame then false else s.audioReady
        prevFrame := s.ldFrame
        irqASec := if c.copATickEn then true else s.irqASec
        irqBSec := if s.bSecEn then true else s.irqBSec
        result := .nothing
        events :=
          (if s.paletteDirty then [.paletteRecalc] else []) ++
          [.overlayRedraw (s.paletteDirty || s.overlayDirty), .irqLine .mainPeriodic false,
            .irqLine .mainPeriodic true] ++
          (if c.copATickEn then [.irqLine .aSec false, .irqLine .aSec true] else []) ++
          (if s.bSecEn then [.irqLine .bSec false, .irqLine .bSec true] else []) } := by
  simp only [tickAll, tickCopIrq_eq, streamFieldUpdate_eq, tickMainIrq_eq, tickRedraw_eq, tickSigloss_eq,
    tickPalette_eq, startOp, List.nil_append, List.append_assoc, List.cons_append]

theorem qualifies_eq_decide (f prev : Word16) :
    qualifies f prev = decide (f.toNat % 53 = 0 ∧ f ≠ prev ∧ 44 ≤ f.toNat / 53) :=
  Bool.eq_iff_iff.mpr ((qualifies_iff f prev).trans decide_eq_true_iff.symm)

theorem reTick_eq_decide (f prev : Word16) : reTick f prev = decide (f.toNat % 53 = 0 ∧ f = prev) :=
  Bool.eq_iff_iff.mpr ((reTick_iff f prev).trans decide_eq_true_iff.symm)

/-- Settles O27: the six steps as one record, the two boundary conditions read as numbers. -/
theorem tickPerformsTheSixSteps : Obligations.TickPerformsTheSixSteps := by
  refine ⟨decodeOfEncodeIsTheOperation .tick rfl, fun s => next_congr ?_⟩
  rw [tickAll_eq, qualifies_eq_decide, reTick_eq_decide]
  rfl

/-! ### The signal-loss counter (R152, R160) -/

theorem tickAll_sigloss (c : Configuration) (s : State) : (tickAll c s).sigloss = s.sigloss - 1 := by
  rw [tickAll_eq]

theorem runOps_cons {i : Instr} {is : List Instr} {s t u : State} {rs : List Result} (hi : exec i s = .next t)
    (his : runOps is t = some (u, rs)) : runOps (i :: is) s = some (u, t.result :: rs) := by
  simp only [runOps, hi, his, Option.map_some]

/-- k ticks from any state complete and lower its counter by k, down to 0. -/
theorem runOps_ticks_sigloss (k : Nat) (s : State) :
    ∃ t rs, runOps (List.replicate k .tick) s = some (t, rs) ∧ t.sigloss = s.sigloss - k := by
  induction k generalizing s with
  | zero => exact ⟨s, [], rfl, rfl⟩
  | succ k ih =>
    obtain ⟨t, rs, hrun, ht⟩ := ih (tickAll Config.machine s)
    refine ⟨t, _, runOps_cons rfl hrun, ?_⟩
    rw [ht, tickAll_sigloss]
    omega

/-- Settles O31: SIGLOSS loads the counter, and the ticks count it down from there. -/
theorem signalLossCountsDownToZero : Obligations.SignalLossCountsDownToZero := by
  intro n k s
  obtain ⟨t, rs, hrun, ht⟩ := runOps_ticks_sigloss k { startOp s with sigloss := n.toNat }
  exact ⟨t, _, runOps_cons rfl hrun, ht⟩

/-! ### Coprocessor B's secondary enable (R162) -/

theorem writeRom_bSecEn (c : Configuration) (p : Proc) (addr : BusAddr) (v : Byte) (s : State) :
    (writeRom c p addr v s).bSecEn = s.bSecEn := storeByte_bSecEn c p _ v _

theorem writeStored_bSecEn (c : Configuration) (p : Proc) (addr : BusAddr) (v : Byte) (s : State) :
    (writeStored c p addr v s).bSecEn = s.bSecEn := storeByte_bSecEn c p _ v _

theorem writeTile_bSecEn (c : Configuration) (addr : BusAddr) (v : Byte) (s : State) :
    (writeTile c addr v s).bSecEn = s.bSecEn := by
  rw [writeTile_eq]
  exact writeStored_bSecEn c .main addr v s

theorem writePalette_bSecEn (c : Configuration) (addr : BusAddr) (v : Byte) (s : State) :
    (writePalette c addr v s).bSecEn = s.bSecEn := by
  rw [writePalette_eq]
  exact writeStored_bSecEn c .main addr v s

theorem readLddata_bSecEn (c : Configuration) (s : State) : (readLddata c s).bSecEn = s.bSecEn := by
  cases h : s.decoderSelect with
  | false => rw [readLddata_video c h]
  | true => rw [readLddata_audio c h]

theorem readMboxA_bSecEn (c : Configuration) (s : State) : (readMboxA c s).bSecEn = s.bSecEn := by
  cases h : s.fifoA with
  | nil => rw [readMboxA_nil c h]
  | cons v rest => rw [readMboxA_cons c h]

theorem readMboxB_bSecEn (c : Configuration) (s : State) : (readMboxB c s).bSecEn = s.bSecEn := by
  cases h : s.fifoB with
  | nil => rw [readMboxB_nil c h]
  | cons v rest => rw [readMboxB_cons c h]

theorem setDip_bSecEn (c : Configuration) (bank : BitVec 24) (value : Byte) (s : State) :
    (setDip c bank value s).bSecEn = s.bSecEn := by
  by_cases h : bank = 0#24
  · rw [setDip, if_pos h]; rfl
  · rw [setDip, if_neg h]; rfl

/-- The two ways a sound write goes on (R190) drive mailbox lines only. -/
theorem sendSound_bSecEn (v : Byte) (s : State) :
    (if v = 0x00#8 then sendToA v (startOp s) else sendToB v (sendToA v (startOp s))).bSecEn = s.bSecEn := by
  by_cases hv : v = 0x00#8
  · rw [if_pos hv]; rfl
  · rw [if_neg hv]; rfl

/-- Every operation completes with the enable as it was, or is RESET or the control write of coprocessor B. -/
theorem exec_completes_bSecEn (i : Instr) (s : State) :
    ∃ t, exec i s = .next t ∧ (t.bSecEn = s.bSecEn ∨ i = .reset ∨ ∃ addr v, i = .bwrCtrl addr v) := by
  cases i with
  | mrdLowram | mrdSprite | mrdTile | mrdPalette | mrdDip | mrdService | mrdLdframe | mrdLdstatus | mrdUndef
  | mrdRom | mrdUnmapped | ardRam | ardRom | ardUnmapped | brdRam | brdUndef | brdRom | brdUnmapped =>
    exact ⟨_, rfl, .inl rfl⟩
  | mwrLdsel | mwrUndef | mwrUnmapped | awrUndef | awrUnmapped | bwrUndef | bwrUnmapped =>
    exact ⟨_, rfl, .inl rfl⟩
  | ldreset | svcset | sigloss | ldframe => exact ⟨_, rfl, .inl rfl⟩
  | mwrLowram addr v | mwrSprite addr v | awrRam addr v | bwrRam addr v =>
    exact ⟨_, rfl, .inl (writeStored_bSecEn _ _ addr v s)⟩
  | mwrRom addr v | awrRom addr v | bwrRom addr v => exact ⟨_, rfl, .inl (writeRom_bSecEn _ _ addr v s)⟩
  | mwrTile addr v => exact ⟨_, rfl, .inl (writeTile_bSecEn _ addr v s)⟩
  | mwrPalette addr v => exact ⟨_, rfl, .inl (writePalette_bSecEn _ addr v s)⟩
  | mrdLddata => exact ⟨_, rfl, .inl (readLddata_bSecEn _ s)⟩
  | mwrSound addr v => exact ⟨_, exec_mwrSound addr v s, .inl (sendSound_bSecEn v s)⟩
  | mwrCtrl _ v => exact ⟨_, rfl, .inl (by rw [writeCtrl_eq])⟩
  | mwrLdcmd _ v => exact ⟨_, rfl, .inl (by rw [writeLdcmd_eq])⟩
  | ardMbox => exact ⟨_, rfl, .inl (readMboxA_bSecEn _ s)⟩
  | brdMbox => exact ⟨_, rfl, .inl (readMboxB_bSecEn _ s)⟩
  | dipset bank value => exact ⟨_, rfl, .inl (setDip_bSecEn _ bank value s)⟩
  | irqack l => exact ⟨_, rfl, .inl (driveLine_bSecEn l false (startOp s))⟩
  | tick => exact ⟨_, rfl, .inl (by rw [tickAll_eq])⟩
  | bwrCtrl addr v => exact ⟨_, rfl, .inr (.inr ⟨addr, v, rfl⟩)⟩
  | reset => exact ⟨_, rfl, .inr (.inl rfl)⟩

theorem bSecEn_cases {i : Instr} {s t : State} (h : exec i s = .next t) :
    t.bSecEn = s.bSecEn ∨ i = .reset ∨ ∃ addr v, i = .bwrCtrl addr v := by
  obtain ⟨t', ht', hcases⟩ := exec_completes_bSecEn i s
  obtain rfl : t' = t := Host.Outcome.next.inj (ht'.symm.trans h)
  exact hcases

/-- Settles O34: the control write sets the enable alone, and every operation but it and RESET keeps it. -/
theorem secondaryEnableIsWrittenOnlyByB : Obligations.SecondaryEnableIsWrittenOnlyByB :=
  ⟨fun _ _ _ => ⟨decode_of_register rfl rfl rfl, rfl⟩, fun _ _ _ h hne => (bSecEn_cases h).resolve_left hne⟩

/-! ### The input latches and the line acknowledgement (R159, R160, R161, R206) -/

/-- Settles O32: the three words are the encoder's, and each operation is one field of the record. -/
theorem inputLatchesAreWrittenAlone : Obligations.InputLatchesAreWrittenAlone :=
  fun _ => ⟨fun f => ⟨decodeOfEncodeIsTheOperation (.ldframe f) rfl, rfl⟩,
    fun n => ⟨decodeOfEncodeIsTheOperation (.sigloss n) rfl, rfl⟩,
    fun v => ⟨decodeOfEncodeIsTheOperation (.svcset v) rfl, rfl⟩⟩

/-- The `arg` of IRQACK, its two fields written as one number (R83). -/
theorem lineArg_eq_ofNat (l : Line) : lineArg l = BitVec.ofNat 24 (l.proc.id * 4 + l.number) := by
  cases l <;> rfl

/-- Driving a line touches no field but the line levels and the event list. -/
theorem driveLine_frame (l : Line) (b : Bool) (s : State) :
    driveLine l b s =
      { s with
        irqMainPeriodic := (driveLine l b s).irqMainPeriodic
        irqAMbox := (driveLine l b s).irqAMbox
        irqASec := (driveLine l b s).irqASec
        irqBMbox := (driveLine l b s).irqBMbox
        irqBSec := (driveLine l b s).irqBSec
        events := s.events ++ [.irqLine l b] } := by
  rw [driveLine_eq]

/-- Settles O33: IRQACK drives its line to 0 on the state without the last operation's outputs. -/
theorem irqackClearsOneLine : Obligations.IrqackClearsOneLine := by
  intro l s
  have hdecode : decode (encode (.irqack l)) = .ok (.irqack l) := decodeOfEncodeIsTheOperation _ rfl
  rw [encode, lineArg_eq_ofNat] at hdecode
  refine ⟨hdecode, driveLine l false (startOp s), rfl, lineLevel_driveLine_same l false _, fun l' hne => ?_,
    driveLine_frame l false (startOp s)⟩
  rw [lineLevel_driveLine_other hne, lineLevel_startOp]

/-! ### The dirty flags after a tick (R151, R153, U9) -/

/-- What the dirty flags were shows in the events of the tick and nowhere else. -/
theorem tickAll_dirty (c : Configuration) (s : State) (pd od pd' od' : Bool) :
    tickAll c { s with paletteDirty := pd', overlayDirty := od' } =
      { tickAll c { s with paletteDirty := pd, overlayDirty := od } with
        events := (tickAll c { s with paletteDirty := pd', overlayDirty := od' }).events } := by
  simp only [tickAll_eq]

/-- Settles O53: the tick leaves both flags 0, and their old values reach its events alone. -/
theorem dirtyFlagsAreDeterminedAfterOneTick : Obligations.DirtyFlagsAreDeterminedAfterOneTick := by
  intro s pd od pd' od'
  exact ⟨_, _, rfl, rfl, by rw [tickAll_eq], by rw [tickAll_eq], tickAll_dirty Config.machine s pd od pd' od'⟩

end Sys2Proof.Machine

/-! PROOFS of the family 42_stream.md: the stream side of the tick (R170 to R173), the shared register (R174,
R175, R181), decoder select (R176), the command register (R177) and the stream reset (R178). The tick's three
cases are read off `tickAll_eq`. A read of the shared register moves the cursor at most, so a run of reads is an
induction whose state is known up to the cursor, the result and the events. -/

namespace Sys2Proof.Machine

/-! ### The stream fields after a tick (R171 to R173) -/

theorem tickAll_stream_of_qualifies (c : Configuration) {s : State} (h : qualifies s.ldFrame s.prevFrame = true) :
    (tickAll c s).baseOffset = some (packetBase (packetIndex s.ldFrame)) ∧ (tickAll c s).position = 0 ∧
      (tickAll c s).audioReady = true ∧ (tickAll c s).prevFrame = s.ldFrame := by
  rw [tickAll_eq]
  exact ⟨if_pos h, if_pos h, if_pos h, rfl⟩

/-- A tick that does not qualify keeps the cursor, and its ready flag depends on the re-tick test alone. -/
theorem tickAll_stream_of_not_qualifies (c : Configuration) {s : State}
    (h : ¬ qualifies s.ldFrame s.prevFrame = true) :
    (tickAll c s).audioReady = (if reTick s.ldFrame s.prevFrame then false else s.audioReady) ∧
      (tickAll c s).baseOffset = s.baseOffset ∧ (tickAll c s).position = s.position ∧
      (tickAll c s).prevFrame = s.ldFrame := by
  rw [tickAll_eq]
  exact ⟨if_neg h, if_neg h, if_neg h, rfl⟩

/-- Settles O28: the last packet index of a 16-bit frame number, 1236, bounds the base. -/
theorem qualifyingTickLoadsThePacket : Obligations.QualifyingTickLoadsThePacket := by
  intro s hboundary hnew hpast
  obtain ⟨hbase, hpos, hready, hprev⟩ :=
    tickAll_stream_of_qualifies Config.machine ((qualifies_iff _ _).mpr ⟨hboundary, hnew, hpast⟩)
  have hindex : s.ldFrame.toNat / 53 ≤ 1236 := packetIndex_le s.ldFrame
  have hnum : (packetBase (packetIndex s.ldFrame)).toNat = (s.ldFrame.toNat / 53 - 44) * 1024 + 1 :=
    packetBase_toNat hindex
  exact ⟨_, _, rfl, hbase, hnum, by omega, hpos, hready, hprev⟩

/-- Settles O29: the frame equals the previous one, so the tick is a re-tick and does not qualify. -/
theorem sameFrameTickClearsTheReadyFlag : Obligations.SameFrameTickClearsTheReadyFlag := by
  intro s hboundary hsame
  have hnot : ¬ qualifies s.ldFrame s.prevFrame = true := fun hq => ((qualifies_iff _ _).mp hq).2.1 hsame
  obtain ⟨hready, hbase, hpos, hprev⟩ := tickAll_stream_of_not_qualifies Config.machine hnot
  rw [if_pos ((reTick_iff _ _).mpr ⟨hboundary, hsame⟩)] at hready
  exact ⟨_, rfl, hready, hbase, hpos, hprev.trans hsame⟩

/-- Settles O30: off a boundary and at a new lead-in boundary the tick neither qualifies nor is a re-tick. -/
theorem otherTicksChangeOnlyPrevFrame : Obligations.OtherTicksChangeOnlyPrevFrame := by
  intro s hother
  have hnot : ¬ qualifies s.ldFrame s.prevFrame = true := by
    rw [qualifies_iff]
    rintro ⟨hboundary, -, hpast⟩
    omega
  have hnotRe : ¬ reTick s.ldFrame s.prevFrame = true := by
    rw [reTick_iff]
    rintro ⟨hboundary, hsame⟩
    obtain hoff | ⟨-, hnew, -⟩ := hother
    · exact hoff hboundary
    · exact hnew hsame
  obtain ⟨hready, hkept⟩ := tickAll_stream_of_not_qualifies Config.machine hnot
  rw [if_neg hnotRe] at hready
  exact ⟨_, rfl, hready, hkept⟩

/-! ### The shared register (R174, R175) -/

/-- Two digits in one byte, as a number (R63, R202). -/
theorem packDigits_eq_ofNat (hi : Nat) {lo : Nat} (hlo : lo < 16) :
    packDigits hi lo = BitVec.ofNat 8 (16 * hi + lo) := by
  apply BitVec.eq_of_toNat_eq
  rw [packDigits, BitVec.toNat_append, BitVec.toNat_ofNat, BitVec.toNat_ofNat, BitVec.toNat_ofNat,
    ← Nat.shiftLeft_add_eq_or_of_lt (Nat.mod_lt _ (by decide)), Nat.shiftLeft_eq]
  omega

theorem frameMidByte_eq_ofNat (f : Word16) :
    frameMidByte f = BitVec.ofNat 8 (16 * (f.toNat / 1000 % 10) + f.toNat / 100 % 10) :=
  packDigits_eq_ofNat _ ((Nat.mod_lt _ (by decide)).trans (by decide))

section StreamIndex

variable {s : State} {b : BitVec 32} (c : Configuration)

theorem streamIndex_none (hb : s.baseOffset = none) : streamIndex c s = none := by
  rw [streamIndex, hb]

theorem streamIndex_inside (hb : s.baseOffset = some b) (h : b.toNat + s.position < c.tableLen) :
    streamIndex c s = some (b.toNat + s.position) := by
  rw [streamIndex, hb]
  exact if_pos h

theorem streamIndex_outside (hb : s.baseOffset = some b) (h : ¬ b.toNat + s.position < c.tableLen) :
    streamIndex c s = none := by
  rw [streamIndex, hb]
  exact if_neg h

end StreamIndex

/-- Settles O35: the two modes of the read, and in audio mode the three cases of its table index. -/
theorem sharedRegisterReadsDigitsOrStream : Obligations.SharedRegisterReadsDigitsOrStream := by
  intro addr s
  refine ⟨decode_of_register rfl rfl rfl, next_congr ?_⟩
  by_cases hmode : s.decoderSelect = false
  · rw [if_pos hmode, readLddata_video _ hmode, frameMidByte_eq_ofNat]
  · rw [if_neg hmode, readLddata_audio _ (eq_true_of_ne_false hmode)]
    cases hb : s.baseOffset with
    | none => simp only [streamIndex_none _ hb]
    | some b =>
      by_cases hin : b.toNat + s.position < Config.machine.tableLen
      · simp only [streamIndex_inside _ hb hin, if_pos hin]
      · simp only [streamIndex_outside _ hb hin, if_neg hin]

/-! ### The cursor law (R181) -/

/-- What an audio-mode read keeps. -/
theorem readLddata_audio_frame (c : Configuration) {s : State} (h : s.decoderSelect = true) :
    readLddata c s =
      { s with position := (s.position + 1) % 1024, result := (readLddata c s).result,
               events := (readLddata c s).events } := by
  rw [readLddata_audio c h]

theorem readLddata_audio_result (c : Configuration) {s : State} {b : BitVec 32} (h : s.decoderSelect = true)
    (hb : s.baseOffset = some b) : (readLddata c s).result = .byte (packetByte c b s.position) := by
  rw [readLddata_audio c h, packetByte]
  by_cases hin : b.toNat + s.position < c.tableLen
  · simp only [streamIndex_inside c hb hin, if_pos hin]
  · simp only [streamIndex_outside c hb hin, if_neg hin]

/-- The cursor law from any point of the packet: with j reads behind it, the next n reads return the bytes
j to j + n - 1, each modulo 1024. -/
theorem runOps_audioReads (addr : BusAddr) {b : BitVec 32} (n j : Nat) {s : State} (hmode : s.decoderSelect = true)
    (hb : s.baseOffset = some b) (hpos : s.position = j % 1024) :
    ∃ t, runOps (List.replicate n (.mrdLddata addr)) s =
        some (t, (List.range' j n).map fun k => .byte (packetByte Config.machine b (k % 1024))) ∧
      t = { s with position := (j + n) % 1024, result := t.result, events := t.events } := by
  induction n generalizing j s with
  | zero => exact ⟨s, rfl, by rw [Nat.add_zero, ← hpos]⟩
  | succ n ih =>
    have hframe := readLddata_audio_frame Config.machine hmode
    have hres := readLddata_audio_result Config.machine hmode hb
    generalize hu : readLddata Config.machine s = u at hframe hres
    have hnext : u.position = (j + 1) % 1024 := by
      rw [hframe, hpos]
      exact Nat.mod_add_mod j 1024 1
    obtain ⟨t, hrun, ht⟩ := ih (j + 1) (s := u) (by rw [hframe]; exact hmode) (by rw [hframe]; exact hb) hnext
    have hread : exec (.mrdLddata addr) s = .next u := next_congr hu
    refine ⟨t, ?_, ?_⟩
    · rw [List.replicate_succ, runOps_cons hread hrun, hres, hpos, List.range'_succ, List.map_cons]
    · rw [hframe, Nat.add_right_comm] at ht
      exact ht

/-- Settles O36: the cursor law from the start of the packet. -/
theorem cursorCyclesThroughThePacket : Obligations.CursorCyclesThroughThePacket := by
  intro addr b s n hmode hb hpos
  obtain ⟨t, hrun, ht⟩ := runOps_audioReads addr n 0 hmode hb hpos
  rw [Nat.zero_add] at ht
  rw [← List.range_eq_range'] at hrun
  exact ⟨t, hrun, ht⟩

/-! ### Decoder select and the command register (R176, R177) -/

/-- Settles O37: the write is one field of the record. -/
theorem decoderSelectWriteTakesOneBit : Obligations.DecoderSelectWriteTakesOneBit :=
  fun _ _ _ => ⟨decode_of_register rfl rfl rfl, rfl⟩

theorem pauseEdge_eq_decide (c : Configuration) (v : Byte) (prev : Option Byte) (f : Word16) :
    pauseEdge c v prev f = decide (v = c.pauseCmd ∧ prev ≠ some v ∧ 44 ≤ f.toNat / 53) :=
  Bool.eq_iff_iff.mpr ((pauseEdge_iff c v prev f).trans decide_eq_true_iff.symm)

theorem zext16_eq_ofNat (v : Byte) : zext16 v = BitVec.ofNat 16 v.toNat := (BitVec.ofNat_toNat 16 v).symm

/-- Settles O38: the write as one record, its edge condition read as a proposition. -/
theorem commandWriteForwardsAndDetectsThePause : Obligations.CommandWriteForwardsAndDetectsThePause := by
  intro addr v s
  refine ⟨decode_of_register rfl rfl rfl, next_congr ?_⟩
  rw [writeLdcmd_eq, pauseEdge_eq_decide, zext16_eq_ofNat]

theorem writeLdcmd_prevCmd (c : Configuration) (v : Byte) (s : State) : (writeLdcmd c v s).prevCmd = some v := by
  rw [writeLdcmd_eq]

/-- A byte equal to the preceding command is no edge, so it is only forwarded. -/
theorem writeLdcmd_of_repeated (c : Configuration) {v : Byte} {s : State} (h : s.prevCmd = some v) :
    writeLdcmd c v s = { s with result := .nothing, events := [.ldCommand (BitVec.ofNat 16 v.toNat)] } := by
  have hedge : ¬ pauseEdge c v s.prevCmd s.ldFrame = true := fun he => ((pauseEdge_iff _ _ _ _).mp he).2.1 h
  rw [writeLdcmd_eq, if_neg hedge, if_neg hedge, zext16_eq_ofNat, ← h]

theorem readLddata_prevCmd (c : Configuration) (s : State) : (readLddata c s).prevCmd = s.prevCmd := by
  cases h : s.decoderSelect with
  | false => rw [readLddata_video c h]
  | true => rw [readLddata_audio c h]

/-- Reads of the shared register, in either mode, complete and keep the preceding command. -/
theorem runOps_reads_prevCmd (reads : List BusAddr) (s : State) :
    ∃ u rs, runOps (reads.map .mrdLddata) s = some (u, rs) ∧ u.prevCmd = s.prevCmd := by
  induction reads generalizing s with
  | nil => exact ⟨s, [], rfl, rfl⟩
  | cons addr reads ih =>
    obtain ⟨u, rs, hrun, hu⟩ := ih (readLddata Config.machine s)
    exact ⟨u, _, runOps_cons rfl hrun, hu.trans (readLddata_prevCmd _ s)⟩

/-- Settles O39: the first send is remembered, the reads keep it, so the second send is no edge. -/
theorem repeatedCommandIsOnlyForwarded : Obligations.RepeatedCommandIsOnlyForwarded := by
  intro first second reads v s
  obtain ⟨u, rs, hrun, hu⟩ := runOps_reads_prevCmd reads (writeLdcmd Config.machine v s)
  have hprev : u.prevCmd = some v := hu.trans (writeLdcmd_prevCmd _ v s)
  exact ⟨u, _, runOps_cons rfl hrun, next_congr (writeLdcmd_of_repeated _ hprev)⟩

/-! ### The stream reset (R178) -/

/-- Settles O40: prev_frame is 0 after LDRESET, and a frame at or past the threshold is not 0. -/
theorem ldresetResetsTheStreamAlone : Obligations.LdresetResetsTheStreamAlone := by
  refine ⟨decodeOfEncodeIsTheOperation .ldreset rfl, fun s => ⟨rfl, fun hboundary hpast => ?_⟩⟩
  have hnew : s.ldFrame ≠ 0#16 := by
    intro h
    rw [h] at hpast
    exact absurd hpast (by decide)
  obtain ⟨hbase, -, hready, -⟩ := tickAll_stream_of_qualifies Config.machine (s := resetStream (startOp s))
    ((qualifies_iff _ _).mpr ⟨hboundary, hnew, hpast⟩)
  exact ⟨_, rfl, hready, Option.isSome_of_eq_some hbase⟩

end Sys2Proof.Machine

/-! PROOFS of the family 43_mailbox.md: the sound write (R190, R195), the mailbox reads (R192 to R194), their
arbitration (R196) and the conservation of bytes along a run (R191). The one idea: `Carried` says for one
operation that what a FIFO gives out and keeps is what it held and took in, and every operation but RESET
obeys it; a run chains these balances, for both FIFOs by one induction. -/

namespace Sys2Proof.Machine

/-! ### The sound write (R190, R195) -/

/-- The sound write of the machine as one record. -/
theorem exec_mwrSound_eq (addr : BusAddr) (v : Byte) (s : State) :
    exec (.mwrSound addr v) s = .next { s with
      fifoA := s.fifoA ++ [v]
      irqAMbox := true
      fifoB := if v = 0x00#8 then s.fifoB else s.fifoB ++ [v]
      irqBMbox := if v = 0x00#8 then s.irqBMbox else true
      result := .nothing
      events := if v = 0x00#8 then [.irqLine .aMbox true]
        else [.irqLine .aMbox true, .irqLine .bMbox true] } := by
  rw [exec_mwrSound]
  by_cases hv : v = 0x00#8
  · simp only [if_pos hv]; rfl
  · simp only [if_neg hv]; rfl

/-- Settles O41: the sound register is a range of its own, and the write is the record above. -/
theorem soundWriteFeedsBothMailboxes : Obligations.SoundWriteFeedsBothMailboxes :=
  fun addr v s => ⟨decode_of_register rfl rfl rfl, exec_mwrSound_eq addr v s⟩

section FiniteFifo

variable {c : Configuration} {d : Nat} (hdepth : c.fifoDepth = some d)
include hdepth

theorem hasRoom_bounded_iff (q : List Byte) : hasRoom c q = true ↔ q.length < d := by
  simp only [hasRoom, hdepth, decide_eq_true_iff]

theorem writeSound_full_copA {s : State} (hfull : d ≤ s.fifoA.length) (v : Byte) :
    writeSound c v s = .refused (.fifoFull .copA) :=
  if_neg fun hroom => hfull.not_gt ((hasRoom_bounded_iff hdepth _).mp hroom)

theorem writeSound_full_copB {s : State} {v : Byte} (hroom : s.fifoA.length < d) (hv : v ≠ 0x00#8)
    (hfull : d ≤ s.fifoB.length) : writeSound c v s = .refused (.fifoFull .copB) := by
  have hA : hasRoom c s.fifoA = true := (hasRoom_bounded_iff hdepth _).mpr hroom
  have hB : ¬ hasRoom c s.fifoB = true := fun h => hfull.not_gt ((hasRoom_bounded_iff hdepth _).mp h)
  rw [writeSound, if_pos hA, if_neg hv, if_neg hB]

theorem writeSound_fits {s : State} {v : Byte} (hroom : s.fifoA.length < d)
    (hfits : v = 0x00#8 ∨ s.fifoB.length < d) :
    writeSound c v s = .next (if v = 0x00#8 then sendToA v (startOp s) else sendToB v (sendToA v (startOp s))) := by
  have hA : hasRoom c s.fifoA = true := (hasRoom_bounded_iff hdepth _).mpr hroom
  rw [writeSound, if_pos hA]
  by_cases hv : v = 0x00#8
  · rw [if_pos hv, if_pos hv]
  · have hB : hasRoom c s.fifoB = true := (hasRoom_bounded_iff hdepth _).mpr (hfits.resolve_left hv)
    rw [if_neg hv, if_neg hv, if_pos hB]

end FiniteFifo

/-- Settles O45: a write that fits does what the machine's unbounded FIFOs always do. -/
theorem finiteFifoOverflowIsRefused : Obligations.FiniteFifoOverflowIsRefused :=
  fun _ _ v s hdepth =>
    ⟨fun hfull => writeSound_full_copA hdepth hfull v,
      writeSound_full_copB hdepth,
      fun hroom hfits => (writeSound_fits hdepth hroom hfits).trans
        (writeSound_unbounded (c := Config.machine) rfl v s).symm⟩

/-! ### The mailbox reads (R192 to R194, R196) -/

/-- Settles O42: each read is its law for the empty and for the non-empty FIFO. -/
theorem mailboxReadsTakeOneByte : Obligations.MailboxReadsTakeOneByte := by
  intro addr s
  refine ⟨decode_of_register rfl rfl rfl, decode_of_register rfl rfl rfl,
    next_congr (s := readMboxA Config.machine s) ?_, next_congr (s := readMboxB Config.machine s) ?_⟩
  · cases h : s.fifoA with
    | nil => simp only [readMboxA_nil _ h, h]
    | cons v rest => exact readMboxA_cons _ h
  · cases h : s.fifoB with
    | nil => simp only [readMboxB_nil _ h, h]
    | cons v rest => exact readMboxB_cons _ h

theorem exec_ardMbox_nil (addr : BusAddr) {s : State} (h : s.fifoA = []) :
    exec (.ardMbox addr) s =
      .next { s with result := .byte Config.machine.mboxEmptyValue, events := [.diag (.mboxEmpty .copA)] } :=
  next_congr (readMboxA_nil _ h)

theorem exec_ardMbox_cons (addr : BusAddr) {s : State} {v : Byte} {rest : List Byte} (h : s.fifoA = v :: rest) :
    exec (.ardMbox addr) s = .next { s with fifoA := rest, result := .byte v, events := [] } :=
  next_congr (readMboxA_cons _ h)

/-- Settles O44: the read that comes first finds the FIFO empty, the one that comes second finds [v]. -/
theorem mailboxArbitrationFollowsTheOrder : Obligations.MailboxArbitrationFollowsTheOrder := by
  intro addr addr' v s hempty
  have hpushed : s.fifoA ++ [v] = [v] := congrArg (· ++ [v]) hempty
  exact ⟨⟨_, runOps_cons (exec_ardMbox_nil addr' hempty) (runOps_cons (exec_mwrSound_eq addr v _) rfl), hpushed⟩,
    ⟨_, runOps_cons (exec_mwrSound_eq addr v s) (runOps_cons (exec_ardMbox_cons addr' hpushed) rfl), rfl⟩⟩

/-! ### The FIFOs across the shared operations -/

/-- The two mailboxes of a state. -/
def fifos (s : State) : List Byte × List Byte := (s.fifoA, s.fifoB)

theorem fifos_driveLine (l : Line) (b : Bool) (s : State) : fifos (driveLine l b s) = fifos s := by
  cases l <;> rfl

theorem fifos_writeStored (c : Configuration) (p : Proc) (addr : BusAddr) (v : Byte) (s : State) :
    fifos (writeStored c p addr v s) = fifos s := by
  cases p <;> rfl

theorem fifos_writeRom (c : Configuration) (p : Proc) (addr : BusAddr) (v : Byte) (s : State) :
    fifos (writeRom c p addr v s) = fifos s := by
  cases p <;> rfl

theorem fifos_writeTile (c : Configuration) (addr : BusAddr) (v : Byte) (s : State) :
    fifos (writeTile c addr v s) = fifos s := by
  rw [writeTile_eq]
  exact fifos_writeStored c .main addr v s

theorem fifos_writePalette (c : Configuration) (addr : BusAddr) (v : Byte) (s : State) :
    fifos (writePalette c addr v s) = fifos s := by
  rw [writePalette_eq]
  exact fifos_writeStored c .main addr v s

theorem fifos_readLddata (c : Configuration) (s : State) : fifos (readLddata c s) = fifos s := by
  cases h : s.decoderSelect with
  | false => rw [readLddata_video c h]; rfl
  | true => rw [readLddata_audio c h]; rfl

theorem fifos_setDip (c : Configuration) (bank : BitVec 24) (value : Byte) (s : State) :
    fifos (setDip c bank value s) = fifos s := by
  by_cases h : bank = 0#24
  · rw [setDip, if_pos h]; rfl
  · rw [setDip, if_neg h]; rfl

/-! ### The balance of one operation (R190 to R193) -/

/-- Operation i, from s to t, carries the bytes through both mailboxes: what is taken out and what stays are
what was there and what is written, for B without the zero bytes. -/
structure Carried (i : Instr) (s t : State) : Prop where
  copA : takenByA i s t ++ t.fifoA = s.fifoA ++ soundBytes [i]
  copB : takenByB i s t ++ t.fifoB = s.fifoB ++ (soundBytes [i]).filter (· != 0x00#8)

/-- An operation that takes no byte, writes none and leaves the FIFOs alone. -/
theorem Carried.quiet {i : Instr} {s t : State} (hA : takenByA i s t = []) (hB : takenByB i s t = [])
    (hsound : soundBytes [i] = []) (h : fifos t = fifos s) : Carried i s t := by
  obtain ⟨hfifoA, hfifoB⟩ := Prod.mk.inj h
  constructor
  case copA => rw [hA, hsound, hfifoA, List.append_nil, List.nil_append]
  case copB => rw [hB, hsound, hfifoB, List.filter_nil, List.append_nil, List.nil_append]

theorem carried_mwrSound (addr : BusAddr) (v : Byte) (s : State) :
    ∃ t, exec (.mwrSound addr v) s = .next t ∧ Carried (.mwrSound addr v) s t := by
  refine ⟨_, exec_mwrSound_eq addr v s, rfl, ?_⟩
  change (if v = 0x00#8 then s.fifoB else s.fifoB ++ [v]) = s.fifoB ++ [v].filter (· != 0x00#8)
  by_cases hv : v = 0x00#8
  · rw [if_pos hv, List.filter_cons_of_neg (by simp [hv]), List.filter_nil, List.append_nil]
  · rw [if_neg hv, List.filter_cons_of_pos (by simp [hv]), List.filter_nil]

theorem carried_ardMbox (addr : BusAddr) (s : State) : Carried (.ardMbox addr) s (readMboxA Config.machine s) := by
  cases h : s.fifoA with
  | nil =>
    rw [readMboxA_nil _ h]
    exact .quiet (by simp [takenByA, h]) rfl rfl rfl
  | cons v rest =>
    rw [readMboxA_cons _ h]
    constructor
    case copA => simp [takenByA, soundBytes, h]
    case copB => simp [takenByB, soundBytes]

theorem carried_brdMbox (addr : BusAddr) (s : State) : Carried (.brdMbox addr) s (readMboxB Config.machine s) := by
  cases h : s.fifoB with
  | nil =>
    rw [readMboxB_nil _ h]
    exact .quiet rfl (by simp [takenByB, h]) rfl rfl
  | cons v rest =>
    rw [readMboxB_cons _ h]
    constructor
    case copA => simp [takenByA, soundBytes]
    case copB => simp [takenByB, soundBytes, h]

/-- Every operation but RESET completes and carries the bytes through both mailboxes. -/
theorem exec_completes_carried {i : Instr} (hi : i ≠ .reset) (s : State) :
    ∃ t, exec i s = .next t ∧ Carried i s t := by
  cases i with
  | mrdLowram | mrdSprite | mrdTile | mrdPalette | mrdDip | mrdService | mrdLdframe | mrdLdstatus | mrdUndef
  | mrdRom | mrdUnmapped | ardRam | ardRom | ardUnmapped | brdRam | brdUndef | brdRom | brdUnmapped =>
    exact ⟨_, rfl, .quiet rfl rfl rfl rfl⟩
  | mwrLdsel | mwrUndef | mwrUnmapped | awrUndef | awrUnmapped | bwrCtrl | bwrUndef | bwrUnmapped =>
    exact ⟨_, rfl, .quiet rfl rfl rfl rfl⟩
  | ldreset | svcset | sigloss | ldframe => exact ⟨_, rfl, .quiet rfl rfl rfl rfl⟩
  | mwrLowram addr v | mwrSprite addr v | awrRam addr v | bwrRam addr v =>
    exact ⟨_, rfl, .quiet rfl rfl rfl (fifos_writeStored _ _ addr v s)⟩
  | mwrRom addr v | awrRom addr v | bwrRom addr v =>
    exact ⟨_, rfl, .quiet rfl rfl rfl (fifos_writeRom _ _ addr v s)⟩
  | mwrTile addr v => exact ⟨_, rfl, .quiet rfl rfl rfl (fifos_writeTile _ addr v s)⟩
  | mwrPalette addr v => exact ⟨_, rfl, .quiet rfl rfl rfl (fifos_writePalette _ addr v s)⟩
  | mrdLddata => exact ⟨_, rfl, .quiet rfl rfl rfl (fifos_readLddata _ s)⟩
  | mwrCtrl _ v => exact ⟨_, rfl, .quiet rfl rfl rfl (by rw [writeCtrl_eq]; rfl)⟩
  | mwrLdcmd _ v => exact ⟨_, rfl, .quiet rfl rfl rfl (by rw [writeLdcmd_eq]; rfl)⟩
  | dipset bank value => exact ⟨_, rfl, .quiet rfl rfl rfl (fifos_setDip _ bank value s)⟩
  | irqack l => exact ⟨_, rfl, .quiet rfl rfl rfl (fifos_driveLine l false (startOp s))⟩
  | tick => exact ⟨_, rfl, .quiet rfl rfl rfl (by rw [tickAll_eq]; rfl)⟩
  | mwrSound addr v => exact carried_mwrSound addr v s
  | ardMbox addr => exact ⟨_, rfl, carried_ardMbox addr s⟩
  | brdMbox addr => exact ⟨_, rfl, carried_brdMbox addr s⟩
  | reset => exact absurd rfl hi

theorem exec_carried {i : Instr} {s t : State} (hi : i ≠ .reset) (h : exec i s = .next t) : Carried i s t := by
  obtain ⟨t', ht', hcarried⟩ := exec_completes_carried hi s
  obtain rfl : t' = t := Host.Outcome.next.inj (ht'.symm.trans h)
  exact hcarried

/-! ### The balance along a run (R191) -/

theorem exists_of_runOps_cons {i : Instr} {is : List Instr} {s u : State} {rs : List Result}
    (h : runOps (i :: is) s = some (u, rs)) : ∃ t rs', exec i s = .next t ∧ runOps is t = some (u, rs') := by
  cases hi : exec i s with
  | next t =>
    simp only [runOps, hi, Option.map_eq_some_iff] at h
    obtain ⟨⟨u', rs'⟩, hrun, heq⟩ := h
    obtain ⟨rfl, -⟩ := Prod.mk.inj heq
    exact ⟨t, rs', rfl, hrun⟩
  | _ => simp [runOps, hi] at h

theorem takenAlong_cons {taken : Instr → State → State → List Byte} {i : Instr} {s t : State}
    (h : exec i s = .next t) (is : List Instr) :
    takenAlong taken (i :: is) s = taken i s t ++ takenAlong taken is t := by
  simp only [takenAlong, h]

/-- A queue that every operation but RESET balances is balanced along every run without RESET. -/
theorem takenAlong_balanced {taken : Instr → State → State → List Byte} {queue : State → List Byte}
    {sent : Instr → List Byte}
    (hstep : ∀ {i s t}, i ≠ .reset → exec i s = .next t → taken i s t ++ queue t = queue s ++ sent i)
    {is : List Instr} {s u : State} {rs : List Result} (hnr : .reset ∉ is) (hrun : runOps is s = some (u, rs)) :
    takenAlong taken is s ++ queue u = queue s ++ is.flatMap sent := by
  induction is generalizing s rs with
  | nil =>
    obtain ⟨rfl, -⟩ := Prod.mk.inj (Option.some.inj hrun)
    exact (List.append_nil _).symm
  | cons i is ih =>
    obtain ⟨t, rs', hexec, hrest⟩ := exists_of_runOps_cons hrun
    calc takenAlong taken (i :: is) s ++ queue u
        = taken i s t ++ (takenAlong taken is t ++ queue u) := by
          rw [takenAlong_cons hexec, List.append_assoc]
      _ = taken i s t ++ queue t ++ is.flatMap sent := by
          rw [ih (List.not_mem_of_not_mem_cons hnr) hrest, List.append_assoc]
      _ = queue s ++ (i :: is).flatMap sent := by
          rw [hstep (List.ne_of_not_mem_cons hnr).symm hexec, List.append_assoc, List.flatMap_cons]

/-- The bytes a run writes are those of its operations, one after another. -/
theorem soundBytes_eq_flatMap (is : List Instr) : soundBytes is = is.flatMap fun i => soundBytes [i] := by
  induction is with
  | nil => rfl
  | cons i is ih =>
    rw [List.flatMap_cons, ← ih]
    cases i <;> rfl

/-- Settles O43: each operation balances both FIFOs, so a run does. -/
theorem mailboxesKeepOrderAndLoseNothing : Obligations.MailboxesKeepOrderAndLoseNothing := by
  intro is s t rs hnr hrun
  rw [soundBytes_eq_flatMap, List.filter_flatMap]
  exact ⟨takenAlong_balanced (queue := State.fifoA) (fun hi h => (exec_carried hi h).copA) hnr hrun,
    takenAlong_balanced (queue := State.fifoB) (fun hi h => (exec_carried hi h).copB) hnr hrun⟩

end Sys2Proof.Machine

/-! PROOFS of the family 44_status_control.md: the status byte (R200), the decimal digits of the frame number
(R201, R202), the switch reads (R203, R207), the control latch (R204) and DIPSET (R205). The one idea of the last:
bit k of the stored byte is bit `perm.symm k` of the written one (`getLsbD_permuteInto`), whatever the byte held
before; all that R205 derives is read off that. -/

namespace Sys2Proof.Machine

/-! ### The switch reads and the control latch (R203, R204, R207) -/

/-- Settles O48: each read returns its switch byte and does no more. -/
theorem switchReadsReturnTheSwitches : Obligations.SwitchReadsReturnTheSwitches :=
  fun _ _ => ⟨decode_of_register rfl rfl rfl, rfl, decode_of_register rfl rfl rfl, rfl⟩

/-- Settles O49: the write as one record, its two edges those of the two watched bits. -/
theorem controlWriteActsOnEdges : Obligations.ControlWriteActsOnEdges :=
  fun _ v s => ⟨decode_of_register rfl rfl rfl, next_congr (writeCtrl_eq Config.machine v s)⟩

/-! ### The status byte (R200) -/

theorem audioClockLost_eq_decide (f : Word16) (sigloss : Nat) :
    audioClockLost f sigloss = decide (f.toNat / 53 < 44 ∨ sigloss ≠ 0) := by
  rw [audioClockLost, Bool.eq_iff_iff, decide_eq_true_iff, Bool.or_eq_true, Bool.not_eq_true', bne_iff_ne,
    ← Bool.not_eq_true, pastThreshold_iff_packet, Nat.not_le]

theorem discPlaying_eq_decide (f : Word16) (sigloss : Nat) :
    discPlaying f sigloss = decide (sigloss = 0 ∧ f.toNat ≠ 0) := by
  have hzero : f = 0#16 ↔ f.toNat = 0 := BitVec.toNat_inj.symm
  rw [discPlaying, Bool.eq_iff_iff, decide_eq_true_iff, Bool.and_eq_true, beq_iff_eq, bne_iff_ne, Ne, hzero]

/-- A 16-bit frame number is at most 65535, so its ten-thousands digit fits in three bits. -/
theorem bcdDigit_four (f : Word16) : bcdDigit f 4 = f.toNat / 10000 := by
  have hlt : f.toNat < 2 ^ 16 := f.isLt
  rw [bcdDigit]
  omega

/-- Five bits put together, the first one highest. -/
theorem getLsbD_of_eq_ofBools (a b c d e : Bool) {x : BitVec 5}
    (hx : x = BitVec.ofBool a ++ BitVec.ofBool b ++ BitVec.ofBool c ++ BitVec.ofBool d ++ BitVec.ofBool e) :
    x.getLsbD 4 = a ∧ x.getLsbD 3 = b ∧ x.getLsbD 2 = c ∧ x.getLsbD 1 = d ∧ x.getLsbD 0 = e := by
  subst hx
  revert a b c d e
  decide

/-- The flag bits of the status byte are those above the three of the digit. -/
theorem statusByte_flags (f : Word16) (sigloss : Nat) (ready : Bool) :
    (statusByte f sigloss ready).getLsbD 7 = audioClockLost f sigloss ∧
      (statusByte f sigloss ready).getLsbD 6 = false ∧
      (statusByte f sigloss ready).getLsbD 5 = discPlaying f sigloss ∧
      (statusByte f sigloss ready).getLsbD 4 = true ∧
      (statusByte f sigloss ready).getLsbD 3 = ready := by
  have habove (i : Nat) : (statusByte f sigloss ready).getLsbD (i + 3) = _ :=
    BitVec.getLsbD_append.trans (if_neg (Nat.not_lt.mpr (Nat.le_add_left 3 i)))
  obtain ⟨hlost, haudio, hdisc, hcmd, hready⟩ :=
    getLsbD_of_eq_ofBools (audioClockLost f sigloss) false (discPlaying f sigloss) Config.statusCmdReady ready rfl
  exact ⟨(habove 4).trans hlost, (habove 3).trans haudio, (habove 2).trans hdisc, (habove 1).trans hcmd,
    (habove 0).trans hready⟩

/-- The low three bits of the status byte are the ten-thousands digit. -/
theorem statusByte_digit (f : Word16) (sigloss : Nat) (ready : Bool) :
    (statusByte f sigloss ready).toNat % 8 = f.toNat / 10000 := by
  have hlt : f.toNat < 2 ^ 16 := f.isLt
  have hlow : (statusByte f sigloss ready).setWidth 3 = BitVec.ofNat 3 (bcdDigit f 4) :=
    BitVec.setWidth_append_eq_right
  have hnum := congrArg BitVec.toNat hlow
  rw [BitVec.toNat_setWidth, BitVec.toNat_ofNat, bcdDigit_four] at hnum
  omega

/-- Settles O46: the flags and the digit of the status byte, its two conditions read as propositions. -/
theorem statusByteBits : Obligations.StatusByteBits := by
  intro addr s
  obtain ⟨hlost, haudio, hdisc, hcmd, hready⟩ := statusByte_flags s.ldFrame s.sigloss s.audioReady
  exact ⟨decode_of_register rfl rfl rfl, _, rfl, hlost.trans (audioClockLost_eq_decide _ _), haudio,
    hdisc.trans (discPlaying_eq_decide _ _), hcmd, hready, statusByte_digit _ _ _⟩

/-! ### The digits of the frame number (R201, R202) -/

theorem bcdDigit_lt (f : Word16) (k : Nat) : bcdDigit f k < 10 := Nat.mod_lt _ (by decide)

/-- The two nibbles of a digit byte are the digits packed into it. -/
theorem packDigits_nibbles {hi lo : Nat} (hhi : hi < 10) (hlo : lo < 10) :
    (packDigits hi lo).toNat / 16 = hi ∧ (packDigits hi lo).toNat % 16 = lo := by
  rw [packDigits_eq_ofNat hi (by omega), BitVec.toNat_ofNat]
  omega

/-- The five decimal digits of a frame number give it back (R202, R208). -/
theorem toNat_eq_bcdDigits (f : Word16) :
    f.toNat = 10000 * (f.toNat / 10000) + 1000 * bcdDigit f 3 + 100 * bcdDigit f 2 + 10 * bcdDigit f 1 +
      bcdDigit f 0 := by
  simp only [bcdDigit]
  omega

/-- Settles O47: the low bits of the status byte and the four nibbles are the five digits. -/
theorem frameDigitsGiveTheFrameBack : Obligations.FrameDigitsGiveTheFrameBack := by
  intro status data frame s
  have hdigit := bcdDigit_lt s.ldFrame
  obtain ⟨hthousands, hhundreds⟩ := packDigits_nibbles (hdigit 3) (hdigit 2)
  obtain ⟨htens, hunits⟩ := packDigits_nibbles (hdigit 1) (hdigit 0)
  refine ⟨decode_of_register rfl rfl rfl, statusByte s.ldFrame s.sigloss s.audioReady, frameMidByte s.ldFrame,
    frameLowByte s.ldFrame, rfl, exec_mrdLddata_video data, rfl, ?_⟩
  rw [statusByte_digit, frameMidByte, frameLowByte, hthousands, hhundreds, htens, hunits]
  exact ⟨Nat.le_of_lt_succ (hdigit 3), Nat.le_of_lt_succ (hdigit 2), Nat.le_of_lt_succ (hdigit 1),
    Nat.le_of_lt_succ (hdigit 0), toNat_eq_bcdDigits s.ldFrame⟩

/-! ### The permutation of the switch bits (R205) -/

section Permutation

variable (perm : Equiv.Perm (Fin 8)) (old v : Byte)

/-- After the input bits of a list are placed, bit k holds the input bit that goes there if the list has it, and
otherwise what it held. -/
theorem getLsbD_foldl_setBit (l : List (Fin 8)) (k : Fin 8) :
    (l.foldl (fun acc i => setBit acc (perm i).val (v.getLsbD i.val)) old).getLsbD k.val =
      if perm.symm k ∈ l then v.getLsbD (perm.symm k).val else old.getLsbD k.val := by
  induction l generalizing old with
  | nil => rfl
  | cons i l ih =>
    rw [List.foldl_cons, ih, getLsbD_setBit _ (perm i).isLt]
    by_cases hl : perm.symm k ∈ l
    · rw [if_pos hl, if_pos (List.mem_cons_of_mem i hl)]
    · rw [if_neg hl]
      by_cases hi : perm.symm k = i
      · subst hi
        rw [perm.apply_symm_apply, if_pos rfl, if_pos List.mem_cons_self]
      · have hk : k.val ≠ (perm i).val := fun h => hi (perm.symm_apply_eq.mpr (Fin.ext h))
        rw [if_neg hk, if_neg (List.not_mem_cons_of_ne_of_not_mem hi hl)]

/-- Every bit of the old byte is overwritten. -/
theorem getLsbD_permuteInto (k : Fin 8) :
    (permuteInto perm old v).getLsbD k.val = v.getLsbD (perm.symm k).val := by
  rw [permuteInto, getLsbD_foldl_setBit, if_pos (List.mem_finRange _)]

variable {old v} in
theorem permuteInto_eq_iff {w : Byte} :
    permuteInto perm old v = w ↔ ∀ k : Fin 8, v.getLsbD (perm.symm k).val = w.getLsbD k.val := by
  simp only [← getLsbD_permuteInto perm old]
  exact ⟨fun h k => h ▸ rfl, fun h => BitVec.eq_of_getLsbD_eq fun k hk => h ⟨k, hk⟩⟩

/-- The inverse permutation takes the stored byte back to the written one, whatever either started from. -/
theorem permuteInto_symm_permuteInto (old' : Byte) :
    permuteInto perm.symm old' (permuteInto perm old v) = v := by
  rw [permuteInto_eq_iff]
  intro k
  rw [getLsbD_permuteInto, Equiv.symm_symm, Equiv.symm_apply_apply]

theorem permuteInto_bijective : Function.Bijective (permuteInto perm old) :=
  Function.bijective_iff_has_inverse.mpr ⟨permuteInto perm.symm old,
    fun v => permuteInto_symm_permuteInto perm old v old,
    fun v => permuteInto_symm_permuteInto perm.symm old v old⟩

/-- The stored bits are the written ones in another order, so as many of them are 1. -/
theorem countP_permuteInto :
    (List.finRange 8).countP (fun i => (permuteInto perm old v).getLsbD i.val) =
      (List.finRange 8).countP (fun i => v.getLsbD i.val) := by
  calc (List.finRange 8).countP (fun i => (permuteInto perm old v).getLsbD i.val)
      = (List.finRange 8).countP ((fun i => v.getLsbD i.val) ∘ perm.symm) := by
        simp only [getLsbD_permuteInto, Function.comp_def]
    _ = ((List.finRange 8).map perm.symm).countP (fun i => v.getLsbD i.val) := List.countP_map.symm
    _ = (List.finRange 8).countP (fun i => v.getLsbD i.val) :=
        (Equiv.Perm.map_finRange_perm perm.symm).countP_eq _

end Permutation

/-- Settles O51: a byte of equal bits is its own image, and the rest is the inverse and the reordering. -/
theorem dipPermutationIsABijection : Obligations.DipPermutationIsABijection := by
  intro perm old
  have hones (k : Fin 8) : (0xFF#8).getLsbD k.val = true := BitVec.getLsbD_allOnes.trans (decide_eq_true k.isLt)
  refine ⟨permuteInto_bijective perm old, (permuteInto_eq_iff perm).mpr fun k => ?_,
    (permuteInto_eq_iff perm).mpr fun k => ?_, countP_permuteInto perm old⟩
  · rw [BitVec.getLsbD_zero, BitVec.getLsbD_zero]
  · rw [hones, hones]

/-! ### DIPSET (R205, U14) -/

theorem setDip_bankZero (c : Configuration) (value : Byte) (s : State) :
    setDip c 0#24 value s =
      { s with dipSw := permuteInto c.dipPerm s.dipSw value, result := .flag true, events := [] } := if_pos rfl

theorem setDip_otherBank (c : Configuration) {bank : BitVec 24} (h : bank ≠ 0#24) (value : Byte) (s : State) :
    setDip c bank value s = { s with result := .flag false, events := [] } := if_neg h

/-- Settles O50: the two cases of the bank; in bank 0 input bit i is the one the permutation takes to its image. -/
theorem dipsetPermutesBankZero : Obligations.DipsetPermutesBankZero := by
  intro bank value s
  refine ⟨decodeWith_dipset _ _ _, ?_, fun hbank => next_congr (setDip_otherBank Config.machine hbank value s)⟩
  rintro rfl
  refine ⟨_, next_congr (setDip_bankZero Config.machine value s), fun i => ?_, rfl⟩
  rw [getLsbD_permuteInto, Equiv.symm_apply_apply]

end Sys2Proof.Machine

/-! PROOFS of the family 60_exceptions.md: completion and results (R220, R95), diagnostics (R231), the access
matrix (R240, R244) and the interrupt lines (R225 to R228). The one idea: `exec_performs` says once which shared
operation of the model each of the 49 operations performs, the plain bus accesses of all three processors
gathered in `BusAccess`; each rule is then read off those twenty ways, the same one in every state. -/

namespace Sys2Proof.Machine

/-! ### The plain bus accesses (R111 to R140) -/

/-- The accesses to RAM, to ROM and to unmapped space that an operation i of processor p can be. -/
inductive BusAccess (i : Instr) (p : Proc) : (State → State) → Prop where
  | stored (addr : BusAddr) (hi : i.isBusRead = true) : BusAccess i p (readStored Config.machine p addr)
  | unmapped (addr : BusAddr) (hi : i.isBusRead = true) : BusAccess i p (readUnmapped Config.machine p addr)
  | store (addr : BusAddr) (v : Byte) (hi : i.isBusRead = false) : BusAccess i p (writeStored Config.machine p addr v)
  | romStore (addr : BusAddr) (v : Byte) (hi : i.isBusRead = false) : BusAccess i p (writeRom Config.machine p addr v)
  | discard (addr : BusAddr) (v : Byte) (hi : i.isBusRead = false) : BusAccess i p (writeUnmapped p addr v)

section BusAccess

variable {i : Instr} {p : Proc} {f : State → State}

/-- A plain access touches the processor's own image and the outputs of the operation. -/
theorem BusAccess.frame (h : BusAccess i p f) (s : State) :
    f s = { setImage p (image p (f s)) s with result := (f s).result, events := (f s).events } := by
  cases h <;> cases p <;> rfl

/-- A plain read returns a byte and a plain write nothing (R95). -/
theorem BusAccess.result_cases (h : BusAccess i p f) (s : State) :
    (i.isBusRead = true ∧ ∃ v, (f s).result = .byte v) ∨ (i.isBusRead = false ∧ (f s).result = .nothing) := by
  cases h with
  | stored addr hi | unmapped addr hi => exact .inl ⟨hi, _, rfl⟩
  | store addr v hi | romStore addr v hi => exact .inr ⟨hi, storeByte_result _ p _ v _⟩
  | discard addr v hi => exact .inr ⟨hi, rfl⟩

/-- A plain access reports nothing or one diagnostic (R221). -/
theorem BusAccess.events_cases (h : BusAccess i p f) (s : State) :
    (f s).events = [] ∨ ∃ d, (f s).events = [.diag d] := by
  cases h with
  | stored addr => exact .inl rfl
  | store addr v => exact .inl (storeByte_events _ p _ v _)
  | unmapped addr | discard addr v => exact .inr ⟨_, rfl⟩
  | romStore addr v => exact .inr ⟨_, storeByte_events _ p _ v _⟩

/-- What a plain access returns, reports and stores depends on the processor's own image alone (R244). -/
theorem BusAccess.eq_of_image_eq (h : BusAccess i p f) {s s' : State} (himg : image p s = image p s') :
    (f s).result = (f s').result ∧ (f s).events = (f s').events ∧ image p (f s) = image p (f s') := by
  cases h with
  | stored addr =>
    simp only [readStored_eq, readByte_congr himg, true_and]
    cases p <;> exact himg
  | unmapped addr | discard addr v => exact ⟨rfl, rfl, by cases p <;> exact himg⟩
  | store addr v => simp [writeStored, storeByte, himg]
  | romStore addr v => simp [writeRom, storeByte, himg]

end BusAccess

/-! ### The shared operation that each operation performs -/

/-- The sound write, by whether its byte is zero (R190). -/
def soundWritten (v : Byte) (s : State) : State :=
  if v = 0x00#8 then sendToA v (startOp s) else sendToB v (sendToA v (startOp s))

/-- Operation i performs f, in every state. -/
inductive Performs : Instr → (State → State) → Prop where
  | bus {i : Instr} {p : Proc} {f : State → State} (h : BusAccess i p f) (hi : i.agent = .proc p) : Performs i f
  | register {i : Instr} (value : State → Byte) (hi : i.agent = .proc .main) (hread : i.isBusRead = true) :
    Performs i fun s => returnByte (value s) (startOp s)
  | lddata (addr : BusAddr) : Performs (.mrdLddata addr) (readLddata Config.machine)
  | tile (addr : BusAddr) (v : Byte) : Performs (.mwrTile addr v) (writeTile Config.machine addr v)
  | palette (addr : BusAddr) (v : Byte) : Performs (.mwrPalette addr v) (writePalette Config.machine addr v)
  | sound (addr : BusAddr) (v : Byte) : Performs (.mwrSound addr v) (soundWritten v)
  | ctrl (addr : BusAddr) (v : Byte) : Performs (.mwrCtrl addr v) (writeCtrl Config.machine v)
  | ldcmd (addr : BusAddr) (v : Byte) : Performs (.mwrLdcmd addr v) (writeLdcmd Config.machine v)
  | ldsel (addr : BusAddr) (v : Byte) : Performs (.mwrLdsel addr v) (writeLdsel Config.machine v)
  | mboxA (addr : BusAddr) : Performs (.ardMbox addr) (readMboxA Config.machine)
  | mboxB (addr : BusAddr) : Performs (.brdMbox addr) (readMboxB Config.machine)
  | ctrlB (addr : BusAddr) (v : Byte) : Performs (.bwrCtrl addr v) (writeCopBCtrl Config.machine v)
  | tick : Performs .tick (tickAll Config.machine)
  | reset : Performs .reset fun s => resetAll Config.machine (startOp s)
  | ldreset : Performs .ldreset fun s => resetStream (startOp s)
  | dipset (bank : BitVec 24) (value : Byte) : Performs (.dipset bank value) (setDip Config.machine bank value)
  | svcset (value : Byte) : Performs (.svcset value) fun s => { startOp s with serviceSw := value }
  | sigloss (n : BitVec 24) : Performs (.sigloss n) fun s => { startOp s with sigloss := n.toNat }
  | irqack (l : Line) : Performs (.irqack l) fun s => driveLine l false (startOp s)
  | ldframe (n : Word16) : Performs (.ldframe n) fun s => { startOp s with ldFrame := n }

/-- Every operation completes, and performs the same shared operation in every state (R220). -/
theorem exec_performs (i : Instr) : ∃ f, Performs i f ∧ ∀ s, exec i s = .next (f s) := by
  cases i with
  | mrdLowram addr | mrdSprite addr | mrdTile addr | mrdPalette addr | mrdRom addr | ardRam addr | ardRom addr
  | brdRam addr | brdRom addr =>
    exact ⟨_, .bus (.stored addr rfl) rfl, fun _ => rfl⟩
  | mrdUndef addr | mrdUnmapped addr | ardUnmapped addr | brdUndef addr | brdUnmapped addr =>
    exact ⟨_, .bus (.unmapped addr rfl) rfl, fun _ => rfl⟩
  | mwrLowram addr v | mwrSprite addr v | awrRam addr v | bwrRam addr v =>
    exact ⟨_, .bus (.store addr v rfl) rfl, fun _ => rfl⟩
  | mwrRom addr v | awrRom addr v | bwrRom addr v => exact ⟨_, .bus (.romStore addr v rfl) rfl, fun _ => rfl⟩
  | mwrUndef addr v | mwrUnmapped addr v | awrUndef addr v | awrUnmapped addr v | bwrUndef addr v
  | bwrUnmapped addr v =>
    exact ⟨_, .bus (.discard addr v rfl) rfl, fun _ => rfl⟩
  | mrdDip => exact ⟨_, .register State.dipSw rfl rfl, fun _ => rfl⟩
  | mrdService => exact ⟨_, .register State.serviceSw rfl rfl, fun _ => rfl⟩
  | mrdLdframe => exact ⟨_, .register (fun s => frameLowByte s.ldFrame) rfl rfl, fun _ => rfl⟩
  | mrdLdstatus =>
    exact ⟨_, .register (fun s => statusByte s.ldFrame s.sigloss s.audioReady) rfl rfl, fun _ => rfl⟩
  | mrdLddata addr => exact ⟨_, .lddata addr, fun _ => rfl⟩
  | mwrTile addr v => exact ⟨_, .tile addr v, fun _ => rfl⟩
  | mwrPalette addr v => exact ⟨_, .palette addr v, fun _ => rfl⟩
  | mwrSound addr v => exact ⟨_, .sound addr v, exec_mwrSound addr v⟩
  | mwrCtrl addr v => exact ⟨_, .ctrl addr v, fun _ => rfl⟩
  | mwrLdcmd addr v => exact ⟨_, .ldcmd addr v, fun _ => rfl⟩
  | mwrLdsel addr v => exact ⟨_, .ldsel addr v, fun _ => rfl⟩
  | ardMbox addr => exact ⟨_, .mboxA addr, fun _ => rfl⟩
  | brdMbox addr => exact ⟨_, .mboxB addr, fun _ => rfl⟩
  | bwrCtrl addr v => exact ⟨_, .ctrlB addr v, fun _ => rfl⟩
  | tick => exact ⟨_, .tick, fun _ => rfl⟩
  | reset => exact ⟨_, .reset, fun _ => rfl⟩
  | ldreset => exact ⟨_, .ldreset, fun _ => rfl⟩
  | dipset bank value => exact ⟨_, .dipset bank value, fun _ => rfl⟩
  | svcset value => exact ⟨_, .svcset value, fun _ => rfl⟩
  | sigloss n => exact ⟨_, .sigloss n, fun _ => rfl⟩
  | irqack l => exact ⟨_, .irqack l, fun _ => rfl⟩
  | ldframe n => exact ⟨_, .ldframe n, fun _ => rfl⟩

theorem exec_next_performs {i : Instr} {s t : State} (h : exec i s = .next t) : ∃ f, Performs i f ∧ f s = t := by
  obtain ⟨f, hf, hexec⟩ := exec_performs i
  exact ⟨f, hf, Host.Outcome.next.inj ((hexec s).symm.trans h)⟩

/-! ### The shared operations with branches, as one record -/

/-- Both modes of the shared register return a byte, report at most one diagnostic and move the cursor at most. -/
theorem readLddata_frame (c : Configuration) (s : State) :
    ∃ pos v evs, readLddata c s = { s with position := pos, result := .byte v, events := evs } ∧
      (evs = [] ∨ ∃ d, evs = [.diag d]) := by
  by_cases h : s.decoderSelect = true
  · refine ⟨_, _, _, readLddata_audio c h, ?_⟩
    cases streamIndex c s with
    | none => exact .inr ⟨_, rfl⟩
    | some k => exact .inl rfl
  · exact ⟨s.position, _, _, readLddata_video c (Bool.eq_false_of_not_eq_true h), .inl rfl⟩

/-- A mailbox read of A returns a byte, reports at most one diagnostic and changes A's FIFO at most. -/
theorem readMboxA_frame (c : Configuration) (s : State) :
    ∃ q v evs, readMboxA c s = { s with fifoA := q, result := .byte v, events := evs } ∧
      (evs = [] ∨ ∃ d, evs = [.diag d]) := by
  cases h : s.fifoA with
  | nil => exact ⟨s.fifoA, _, _, readMboxA_nil c h, .inr ⟨_, rfl⟩⟩
  | cons v rest => exact ⟨_, _, _, readMboxA_cons c h, .inl rfl⟩

/-- A mailbox read of B returns a byte, reports at most one diagnostic and changes B's FIFO at most. -/
theorem readMboxB_frame (c : Configuration) (s : State) :
    ∃ q v evs, readMboxB c s = { s with fifoB := q, result := .byte v, events := evs } ∧
      (evs = [] ∨ ∃ d, evs = [.diag d]) := by
  cases h : s.fifoB with
  | nil => exact ⟨s.fifoB, _, _, readMboxB_nil c h, .inr ⟨_, rfl⟩⟩
  | cons v rest => exact ⟨_, _, _, readMboxB_cons c h, .inl rfl⟩

/-- DIPSET returns a Boolean, reports nothing and changes the switch byte at most. -/
theorem setDip_frame (c : Configuration) (bank : BitVec 24) (value : Byte) (s : State) :
    ∃ sw ok, setDip c bank value s = { s with dipSw := sw, result := .flag ok, events := [] } := by
  by_cases h : bank = 0#24
  · exact ⟨_, _, if_pos h⟩
  · exact ⟨s.dipSw, _, setDip_otherBank c h value s⟩

/-- A sound write as one record. -/
theorem soundWritten_eq (v : Byte) (s : State) :
    soundWritten v s = { s with
      fifoA := s.fifoA ++ [v]
      irqAMbox := true
      fifoB := if v = 0x00#8 then s.fifoB else s.fifoB ++ [v]
      irqBMbox := if v = 0x00#8 then s.irqBMbox else true
      result := .nothing
      events := if v = 0x00#8 then [.irqLine .aMbox true]
        else [.irqLine .aMbox true, .irqLine .bMbox true] } :=
  Host.Outcome.next.inj ((exec_mwrSound 0#24 v s).symm.trans (exec_mwrSound_eq 0#24 v s))

/-! ### What an operation hands out (R220, R95, R231) -/

/-- The kind of result of operation i (R95). -/
inductive ResultKind (i : Instr) : Result → Prop where
  | byte (v : Byte) (hread : i.isBusRead = true) : ResultKind i (.byte v)
  | flag (ok : Bool) {bank : BitVec 24} {value : Byte} (hi : i = .dipset bank value) : ResultKind i (.flag ok)
  | nothing (hread : i.isBusRead = false) (hdip : ∀ bank value, i ≠ .dipset bank value) : ResultKind i .nothing

/-- An event list that is one diagnostic, or holds none (R231). -/
def LoneDiag (evs : List Event) : Prop := (∃ d, evs = [.diag d]) ∨ ∀ e ∈ evs, e.isDiag = false

theorem LoneDiag.nil : LoneDiag [] := .inr nofun

theorem LoneDiag.of_nil_or {evs : List Event} (h : evs = [] ∨ ∃ d, evs = [.diag d]) : LoneDiag evs := by
  obtain rfl | hd := h
  · exact .nil
  · exact .inl hd

/-- What operation i leaves in t beside its effect: the operations still presented as in s, its kind of result,
and at most a lone diagnostic. -/
structure Outputs (i : Instr) (s t : State) : Prop where
  input : t.input = s.input
  result : ResultKind i t.result
  events : LoneDiag t.events

theorem BusAccess.outputs {i : Instr} {p : Proc} {f : State → State} (h : BusAccess i p f)
    (hi : i.agent = .proc p) (s : State) : Outputs i s (f s) where
  input := by rw [h.frame s]; exact setImage_input _ _ s
  result := by
    obtain ⟨hread, v, hr⟩ | ⟨hwrite, hr⟩ := h.result_cases s <;> rw [hr]
    · exact .byte v hread
    · exact .nothing hwrite (by rintro _ _ rfl; cases hi)
  events := .of_nil_or (h.events_cases s)

theorem Performs.outputs {i : Instr} {f : State → State} (h : Performs i f) (s : State) : Outputs i s (f s) := by
  cases h with
  | bus h hi => exact h.outputs hi s
  | register value _ hread => exact ⟨rfl, .byte _ hread, .nil⟩
  | lddata =>
    obtain ⟨_, v, _, heq, hevs⟩ := readLddata_frame Config.machine s
    rw [heq]
    exact ⟨rfl, .byte v rfl, .of_nil_or hevs⟩
  | mboxA =>
    obtain ⟨_, v, _, heq, hevs⟩ := readMboxA_frame Config.machine s
    rw [heq]
    exact ⟨rfl, .byte v rfl, .of_nil_or hevs⟩
  | mboxB =>
    obtain ⟨_, v, _, heq, hevs⟩ := readMboxB_frame Config.machine s
    rw [heq]
    exact ⟨rfl, .byte v rfl, .of_nil_or hevs⟩
  | dipset bank value =>
    obtain ⟨_, ok, heq⟩ := setDip_frame Config.machine bank value s
    rw [heq]
    exact ⟨rfl, .flag ok rfl, .nil⟩
  | tile => rw [writeTile_eq]; exact ⟨rfl, .nothing rfl nofun, .nil⟩
  | palette => rw [writePalette_eq]; exact ⟨rfl, .nothing rfl nofun, .nil⟩
  | ldsel | ctrlB | reset | ldreset | svcset | sigloss | ldframe => exact ⟨rfl, .nothing rfl nofun, .nil⟩
  | sound addr v =>
    rw [soundWritten_eq]
    refine ⟨rfl, .nothing rfl nofun, .inr ?_⟩
    by_cases hv : v = 0x00#8 <;> simp [hv, Event.isDiag]
  | ctrl addr v =>
    rw [writeCtrl_eq]
    refine ⟨rfl, .nothing rfl nofun, .inr ?_⟩
    by_cases hg : genlockEdge Config.machine s.ctrlLatch v = true <;> simp [hg, Event.isDiag]
  | ldcmd => rw [writeLdcmd_eq]; exact ⟨rfl, .nothing rfl nofun, .inr (by simp [Event.isDiag])⟩
  | irqack l => simp only [driveLine_eq]; exact ⟨rfl, .nothing rfl nofun, .inr (by simp [Event.isDiag])⟩
  | tick =>
    rw [tickAll_eq]
    exact ⟨rfl, .nothing rfl nofun, .inr (by simp [Event.isDiag, or_imp, forall_and])⟩

/-- Settles O9: an operation performs a shared operation, and the three kinds of result exclude each other. -/
theorem everyOperationCompletesWithItsResult : Obligations.EveryOperationCompletesWithItsResult := by
  intro i s
  obtain ⟨f, hf, hexec⟩ := exec_performs i
  obtain ⟨hinput, hresult, -⟩ := hf.outputs s
  refine ⟨f s, hexec s, hinput, ?_⟩
  generalize (f s).result = r at hresult
  cases hresult with
  | byte v hread =>
    exact ⟨fun _ => ⟨v, rfl⟩, fun _ _ heq => by simp [heq, Instr.isBusRead] at hread,
      fun hnot => by simp [hread] at hnot⟩
  | flag ok hi =>
    exact ⟨by simp [hi, Instr.isBusRead], fun _ _ _ => ⟨ok, rfl⟩, fun _ hnot => absurd hi (hnot _ _)⟩
  | nothing hread hdip =>
    exact ⟨fun hbus => by simp [hread] at hbus, fun _ _ heq => absurd heq (hdip _ _), fun _ _ => rfl⟩

/-- Settles O10: an operation that reports a diagnostic reports it alone. -/
theorem oneDiagnosticAndNeverWithALine : Obligations.OneDiagnosticAndNeverWithALine := by
  intro i s t h
  obtain ⟨f, hf, rfl⟩ := exec_next_performs h
  obtain ⟨d, hd⟩ | hnone := (hf.outputs s).events
  · simp [hd, Event.isDiag, Event.isIrq]
  · have hcount : (f s).events.countP (·.isDiag) = 0 := List.countP_eq_zero.mpr (by simpa using hnone)
    have hany : (f s).events.any (·.isDiag) = false := by simpa using hnone
    simp [hcount, hany]

/-! ### The interrupt lines (R225 to R228) -/

/-- The five lines of a state (R36). -/
def lines (s : State) : Bool × Bool × Bool × Bool × Bool :=
  (s.irqMainPeriodic, s.irqAMbox, s.irqASec, s.irqBMbox, s.irqBSec)

theorem lineLevel_congr {s t : State} (h : lines t = lines s) (l : Line) : lineLevel l t = lineLevel l s := by
  simp only [lines, Prod.mk.injEq] at h
  obtain ⟨hmain, hAMbox, hASec, hBMbox, hBSec⟩ := h
  cases l
  · exact hmain
  · exact hAMbox
  · exact hASec
  · exact hBMbox
  · exact hBSec

theorem BusAccess.lines_eq {i : Instr} {p : Proc} {f : State → State} (h : BusAccess i p f) (s : State) :
    lines (f s) = lines s := by
  rw [h.frame s]
  cases p <;> rfl

/-- Operation i raises line l in s. -/
inductive Raises (i : Instr) (s : State) : Line → Prop where
  | mainPeriodic (hi : i = .tick) : Raises i s .mainPeriodic
  | aMbox {addr : BusAddr} {v : Byte} (hi : i = .mwrSound addr v) : Raises i s .aMbox
  | bMbox {addr : BusAddr} {v : Byte} (hi : i = .mwrSound addr v) (hv : v ≠ 0x00#8) : Raises i s .bMbox
  | aSec (hi : i = .tick) (hen : Config.machine.copATickEn = true) : Raises i s .aSec
  | bSec (hi : i = .tick) (hen : s.bSecEn = true) : Raises i s .bSec

/-- Line l is as it was, raised by one of its sources, or lowered by an acknowledgement or a reset. -/
inductive LineMove (i : Instr) (s t : State) (l : Line) : Prop where
  | kept (h : lineLevel l t = lineLevel l s)
  | raised (h : lineLevel l t = true) (hi : Raises i s l)
  | lowered (h : lineLevel l t = false) (hi : i = .irqack l ∨ i = .reset)

/-- No line moves. -/
theorem LineMove.quiet {i : Instr} {s t : State} {l : Line} (h : lines t = lines s) : LineMove i s t l :=
  .kept (lineLevel_congr h l)

theorem lineMove_sound (addr : BusAddr) (v : Byte) (s : State) (l : Line) :
    LineMove (.mwrSound addr v) s (soundWritten v s) l := by
  rw [soundWritten_eq]
  cases l with
  | aMbox => exact .raised rfl (.aMbox rfl)
  | bMbox =>
    by_cases hv : v = 0x00#8
    · exact .kept (if_pos hv)
    · exact .raised (if_neg hv) (.bMbox rfl hv)
  | mainPeriodic | aSec | bSec => exact .kept rfl

theorem lineMove_tick (s : State) (l : Line) : LineMove .tick s (tickAll Config.machine s) l := by
  rw [tickAll_eq]
  cases l with
  | mainPeriodic => exact .raised rfl (.mainPeriodic rfl)
  | aSec =>
    by_cases hen : Config.machine.copATickEn = true
    · exact .raised (if_pos hen) (.aSec rfl hen)
    · exact .kept (if_neg (t := true) hen)
  | bSec =>
    by_cases hen : s.bSecEn = true
    · exact .raised (if_pos hen) (.bSec rfl hen)
    · exact .kept (if_neg hen)
  | aMbox | bMbox => exact .kept rfl

theorem lineMove_irqack (l' : Line) (s : State) (l : Line) :
    LineMove (.irqack l') s (driveLine l' false (startOp s)) l := by
  by_cases h : l = l'
  · subst h
    exact .lowered (lineLevel_driveLine_same l false _) (.inl rfl)
  · exact .kept ((lineLevel_driveLine_other h false _).trans (lineLevel_startOp l s))

theorem Performs.lineMove {i : Instr} {f : State → State} (h : Performs i f) (s : State) (l : Line) :
    LineMove i s (f s) l := by
  cases h with
  | sound addr v => exact lineMove_sound addr v s l
  | tick => exact lineMove_tick s l
  | irqack l' => exact lineMove_irqack l' s l
  | reset => exact .lowered (by cases l <;> rfl) (.inr rfl)
  | bus h => exact .quiet (h.lines_eq s)
  | lddata =>
    obtain ⟨_, _, _, heq, -⟩ := readLddata_frame Config.machine s
    exact .quiet (by rw [heq]; rfl)
  | mboxA =>
    obtain ⟨_, _, _, heq, -⟩ := readMboxA_frame Config.machine s
    exact .quiet (by rw [heq]; rfl)
  | mboxB =>
    obtain ⟨_, _, _, heq, -⟩ := readMboxB_frame Config.machine s
    exact .quiet (by rw [heq]; rfl)
  | dipset bank value =>
    obtain ⟨_, _, heq⟩ := setDip_frame Config.machine bank value s
    exact .quiet (by rw [heq]; rfl)
  | tile => exact .quiet (by rw [writeTile_eq]; rfl)
  | palette => exact .quiet (by rw [writePalette_eq]; rfl)
  | ctrl => exact .quiet (by rw [writeCtrl_eq]; rfl)
  | ldcmd => exact .quiet (by rw [writeLdcmd_eq]; rfl)
  | register | ldsel | ctrlB | ldreset | svcset | sigloss | ldframe => exact .quiet rfl

/-- Settles O14: a line falls only where it is lowered and rises only where it is raised. -/
theorem linesMoveOnlyByTheirOwnSources : Obligations.LinesMoveOnlyByTheirOwnSources := by
  intro i s t l h
  obtain ⟨f, hf, rfl⟩ := exec_next_performs h
  cases hf.lineMove s l with
  | kept hkeep => exact ⟨fun hs ht => by simp [hkeep, hs] at ht, fun hs ht => by simp [hkeep, hs] at ht⟩
  | lowered hlow hi => exact ⟨fun _ _ => hi, fun _ ht => by simp [hlow] at ht⟩
  | raised hhigh hi =>
    refine ⟨fun _ ht => by simp [hhigh] at ht, fun _ _ => ?_⟩
    cases hi with
    | mainPeriodic hi => exact .inl ⟨rfl, hi⟩
    | aMbox hi => exact .inr (.inl ⟨rfl, _, _, hi⟩)
    | bMbox hi hv => exact .inr (.inr (.inl ⟨rfl, _, _, hi, hv⟩))
    | aSec hi hen => exact .inr (.inr (.inr (.inl ⟨rfl, hi, hen⟩)))
    | bSec hi hen => exact .inr (.inr (.inr (.inr ⟨rfl, hi, hen⟩)))

/-! ### What a coprocessor sees (R244) -/

theorem Performs.copA_cases {i : Instr} {f : State → State} (h : Performs i f) (hi : i.agent = .proc .copA) :
    BusAccess i .copA f ∨ f = readMboxA Config.machine := by
  cases h with
  | bus h hp => cases hp.symm.trans hi; exact .inl h
  | mboxA => exact .inr rfl
  | register _ hp => cases hp.symm.trans hi
  | _ => cases hi

theorem Performs.copB_cases {i : Instr} {f : State → State} (h : Performs i f) (hi : i.agent = .proc .copB) :
    BusAccess i .copB f ∨ f = readMboxB Config.machine ∨ ∃ v, f = writeCopBCtrl Config.machine v := by
  cases h with
  | bus h hp => cases hp.symm.trans hi; exact .inl h
  | mboxB => exact .inr (.inl rfl)
  | ctrlB addr v => exact .inr (.inr ⟨v, rfl⟩)
  | register _ hp => cases hp.symm.trans hi
  | _ => cases hi

/-- A plain access leaves both mailboxes alone. -/
theorem BusAccess.fifos_eq {i : Instr} {p : Proc} {f : State → State} (h : BusAccess i p f) (s : State) :
    fifos (f s) = fifos s := by
  rw [h.frame s]
  cases p <;> rfl

/-- Two states that agree on A's image and FIFO show coprocessor A the same. -/
theorem Performs.copA_sees {i : Instr} {f : State → State} (h : Performs i f) (hi : i.agent = .proc .copA)
    {s s' : State} (himg : s.mem1 = s'.mem1) (hfifo : s.fifoA = s'.fifoA) :
    (f s).result = (f s').result ∧ (f s).events = (f s').events ∧ (f s).mem1 = (f s').mem1 ∧
      (f s).fifoA = (f s').fifoA := by
  obtain h | rfl := h.copA_cases hi
  · obtain ⟨hresult, hevents, hmem⟩ := h.eq_of_image_eq (p := .copA) himg
    have hkeep (u : State) : (f u).fifoA = u.fifoA := congrArg Prod.fst (h.fifos_eq u)
    exact ⟨hresult, hevents, hmem, by rw [hkeep, hkeep, hfifo]⟩
  · cases hs : s.fifoA with
    | nil => rw [readMboxA_nil _ hs, readMboxA_nil _ (hfifo ▸ hs)]; exact ⟨rfl, rfl, himg, hfifo⟩
    | cons v rest => rw [readMboxA_cons _ hs, readMboxA_cons _ (hfifo ▸ hs)]; exact ⟨rfl, rfl, himg, rfl⟩

/-- Two states that agree on B's image and FIFO show coprocessor B the same. -/
theorem Performs.copB_sees {i : Instr} {f : State → State} (h : Performs i f) (hi : i.agent = .proc .copB)
    {s s' : State} (himg : s.mem2 = s'.mem2) (hfifo : s.fifoB = s'.fifoB) :
    (f s).result = (f s').result ∧ (f s).events = (f s').events ∧ (f s).mem2 = (f s').mem2 ∧
      (f s).fifoB = (f s').fifoB := by
  obtain h | rfl | ⟨v, rfl⟩ := h.copB_cases hi
  · obtain ⟨hresult, hevents, hmem⟩ := h.eq_of_image_eq (p := .copB) himg
    have hkeep (u : State) : (f u).fifoB = u.fifoB := congrArg Prod.snd (h.fifos_eq u)
    exact ⟨hresult, hevents, hmem, by rw [hkeep, hkeep, hfifo]⟩
  · cases hs : s.fifoB with
    | nil => rw [readMboxB_nil _ hs, readMboxB_nil _ (hfifo ▸ hs)]; exact ⟨rfl, rfl, himg, hfifo⟩
    | cons v rest => rw [readMboxB_cons _ hs, readMboxB_cons _ (hfifo ▸ hs)]; exact ⟨rfl, rfl, himg, rfl⟩
  · exact ⟨rfl, rfl, himg, hfifo⟩

theorem exec_next_performs_both {i : Instr} {s s' t t' : State} (h : exec i s = .next t) (h' : exec i s' = .next t') :
    ∃ f, Performs i f ∧ f s = t ∧ f s' = t' := by
  obtain ⟨f, hf, hexec⟩ := exec_performs i
  exact ⟨f, hf, Host.Outcome.next.inj ((hexec s).symm.trans h), Host.Outcome.next.inj ((hexec s').symm.trans h')⟩

/-- Settles O13: the operation performs the same shared operation in both states. -/
theorem coprocessorsSeeOnlyTheirOwnState : Obligations.CoprocessorsSeeOnlyTheirOwnState := by
  refine ⟨fun i s s' t t' hi himg hfifo h h' => ?_, fun i s s' t t' hi himg hfifo h h' => ?_⟩ <;>
    obtain ⟨f, hf, rfl, rfl⟩ := exec_next_performs_both h h'
  · exact hf.copA_sees hi himg hfifo
  · exact hf.copB_sees hi himg hfifo

/-! ### The access matrix (R240) -/

/-- What an operation of the main processor can change, by field. -/
theorem Performs.main_frame {i : Instr} {f : State → State} (h : Performs i f) (hi : i.agent = .proc .main)
    (s : State) :
    f s = { s with
      mem0 := (f s).mem0, ctrlLatch := (f s).ctrlLatch, decoderSelect := (f s).decoderSelect
      audioReady := (f s).audioReady, position := (f s).position, prevCmd := (f s).prevCmd
      fifoA := (f s).fifoA, fifoB := (f s).fifoB, paletteDirty := (f s).paletteDirty
      overlayDirty := (f s).overlayDirty, transparency := (f s).transparency
      irqAMbox := (f s).irqAMbox, irqBMbox := (f s).irqBMbox
      result := (f s).result, events := (f s).events } := by
  cases h with
  | bus h hp => cases hp.symm.trans hi; rw [h.frame s]; rfl
  | lddata => obtain ⟨_, _, _, heq, -⟩ := readLddata_frame Config.machine s; rw [heq]
  | tile => rw [writeTile_eq]; rfl
  | palette => rw [writePalette_eq]; rfl
  | sound => rw [soundWritten_eq]
  | ctrl => rw [writeCtrl_eq]
  | ldcmd => rw [writeLdcmd_eq]
  | register | ldsel => rfl
  | _ => cases hi

/-- What an operation of coprocessor A can change, by field. -/
theorem Performs.copA_frame {i : Instr} {f : State → State} (h : Performs i f) (hi : i.agent = .proc .copA)
    (s : State) :
    f s = { s with mem1 := (f s).mem1, fifoA := (f s).fifoA, result := (f s).result, events := (f s).events } := by
  obtain h | rfl := h.copA_cases hi
  · rw [h.frame s]; rfl
  · obtain ⟨_, _, _, heq, -⟩ := readMboxA_frame Config.machine s
    rw [heq]

/-- What an operation of coprocessor B can change, by field. -/
theorem Performs.copB_frame {i : Instr} {f : State → State} (h : Performs i f) (hi : i.agent = .proc .copB)
    (s : State) :
    f s = { s with mem2 := (f s).mem2, fifoB := (f s).fifoB, bSecEn := (f s).bSecEn, result := (f s).result,
                   events := (f s).events } := by
  obtain h | rfl | ⟨v, rfl⟩ := h.copB_cases hi
  · rw [h.frame s]; rfl
  · obtain ⟨_, _, _, heq, -⟩ := readMboxB_frame Config.machine s
    rw [heq]
  · rfl

/-- What an operation of the peripheral can change, by field. -/
theorem Performs.peripheral_frame {i : Instr} {f : State → State} (h : Performs i f) (hi : i.agent = .peripheral)
    (s : State) :
    f s = { s with
      ldFrame := (f s).ldFrame, sigloss := (f s).sigloss, baseOffset := (f s).baseOffset
      position := (f s).position, audioReady := (f s).audioReady, prevFrame := (f s).prevFrame
      prevCmd := (f s).prevCmd, result := (f s).result, events := (f s).events } := by
  cases h with
  | ldreset | sigloss | ldframe => rfl
  | bus _ hp | register _ hp => cases hp.symm.trans hi
  | _ => cases hi

/-- What an operation of the host other than RESET can change, by field. -/
theorem Performs.host_frame {i : Instr} {f : State → State} (h : Performs i f) (hi : i.agent = .host)
    (hreset : i ≠ .reset) (s : State) :
    f s = { s with dipSw := (f s).dipSw, serviceSw := (f s).serviceSw, result := (f s).result,
                   events := (f s).events } := by
  cases h with
  | reset => exact absurd rfl hreset
  | dipset bank value => obtain ⟨_, _, heq⟩ := setDip_frame Config.machine bank value s; rw [heq]
  | svcset => rfl
  | bus _ hp | register _ hp => cases hp.symm.trans hi
  | _ => cases hi

/-- The tick source performs the tick alone. -/
theorem eq_tick_of_agent {i : Instr} (hi : i.agent = .tickSource) : i = .tick := by
  cases i with
  | tick => rfl
  | _ => cases hi

/-- The collaborator performs acknowledgements alone. -/
theorem eq_irqack_of_agent {i : Instr} (hi : i.agent = .collaborator) : ∃ l, i = .irqack l := by
  cases i with
  | irqack l => exact ⟨l, rfl⟩
  | _ => cases hi

/-- Only the main processor's operations send sound bytes. -/
theorem soundBytes_of_agent {i : Instr} (hi : i.agent ≠ .proc .main) : soundBytes [i] = [] := by
  cases i with
  | mwrSound => exact absurd rfl hi
  | _ => rfl

/-- Only coprocessor A's operations take bytes from its mailbox. -/
theorem takenByA_of_agent {i : Instr} (hi : i.agent ≠ .proc .copA) (s t : State) : takenByA i s t = [] := by
  cases i with
  | ardMbox => exact absurd rfl hi
  | _ => rfl

/-- Only coprocessor B's operations take bytes from its mailbox. -/
theorem takenByB_of_agent {i : Instr} (hi : i.agent ≠ .proc .copB) (s t : State) : takenByB i s t = [] := by
  cases i with
  | brdMbox => exact absurd rfl hi
  | _ => rfl

/-- An operation of the main processor only adds to the mailboxes. -/
theorem fifos_grow_of_main {i : Instr} {s t : State} (hi : i.agent = .proc .main) (h : exec i s = .next t) :
    (∃ q, t.fifoA = s.fifoA ++ q) ∧ ∃ q, t.fifoB = s.fifoB ++ q := by
  obtain ⟨hA, hB⟩ := exec_carried (by rintro rfl; cases hi) h
  rw [takenByA_of_agent (by simp [hi]), List.nil_append] at hA
  rw [takenByB_of_agent (by simp [hi]), List.nil_append] at hB
  exact ⟨⟨_, hA⟩, _, hB⟩

/-- An operation of coprocessor A only takes from its mailbox. -/
theorem fifoA_shrinks_of_copA {i : Instr} {s t : State} (hi : i.agent = .proc .copA) (h : exec i s = .next t) :
    ∃ q, s.fifoA = q ++ t.fifoA := by
  have hA := (exec_carried (by rintro rfl; cases hi) h).copA
  rw [soundBytes_of_agent (by simp [hi]), List.append_nil] at hA
  exact ⟨_, hA.symm⟩

/-- An operation of coprocessor B only takes from its mailbox. -/
theorem fifoB_shrinks_of_copB {i : Instr} {s t : State} (hi : i.agent = .proc .copB) (h : exec i s = .next t) :
    ∃ q, s.fifoB = q ++ t.fifoB := by
  have hB := (exec_carried (by rintro rfl; cases hi) h).copB
  rw [soundBytes_of_agent (by simp [hi]), List.filter_nil, List.append_nil] at hB
  exact ⟨_, hB.symm⟩

/-- Lines are lowered by the collaborator and the host alone. -/
theorem Performs.line_stays_high {i : Instr} {f : State → State} (h : Performs i f) (hcol : i.agent ≠ .collaborator)
    (hhost : i.agent ≠ .host) {s : State} {l : Line} (hs : lineLevel l s = true) : lineLevel l (f s) = true := by
  cases h.lineMove s l with
  | kept hkeep => rw [hkeep, hs]
  | raised hhigh => exact hhigh
  | lowered _ hi =>
    obtain rfl | rfl := hi
    · exact absurd rfl hcol
    · exact absurd rfl hhost

/-- Lines are raised by the main processor and the tick source alone. -/
theorem Performs.line_was_high {i : Instr} {f : State → State} (h : Performs i f) (hmain : i.agent ≠ .proc .main)
    (htick : i.agent ≠ .tickSource) {s : State} {l : Line} (ht : lineLevel l (f s) = true) :
    lineLevel l s = true := by
  cases h.lineMove s l with
  | kept hkeep => rw [← hkeep, ht]
  | lowered hlow => simp [hlow] at ht
  | raised _ hi =>
    cases hi with
    | mainPeriodic hi | aSec hi | bSec hi => subst hi; exact absurd rfl htick
    | aMbox hi | bMbox hi => subst hi; exact absurd rfl hmain

/-- Settles O12: one row of the matrix for each agent. -/
theorem agentsWriteOnlyWhatTheMatrixAllows : Obligations.AgentsWriteOnlyWhatTheMatrixAllows := by
  intro i s t h
  obtain ⟨f, hf, rfl⟩ := exec_next_performs h
  refine ⟨fun hi => ?main, fun hi => ⟨hf.copA_frame hi s, fifoA_shrinks_of_copA hi h⟩,
    fun hi => ⟨hf.copB_frame hi s, fifoB_shrinks_of_copB hi h⟩, fun hi => ?tick,
    fun hi => hf.peripheral_frame hi s, fun hi hreset => hf.host_frame hi hreset s, fun hi => ?collaborator⟩
  case main =>
    have hlines (l : Line) : lineLevel l s = true → lineLevel l (f s) = true :=
      hf.line_stays_high (by simp [hi]) (by simp [hi])
    refine ⟨?_, ?_, ?_, ?_, ?_, ?_, ?_, hlines, fifos_grow_of_main hi h⟩ <;> rw [hf.main_frame hi s]
  case tick =>
    obtain rfl := eq_tick_of_agent hi
    cases hf with
    | tick => rw [tickAll_eq]
    | bus _ hp | register _ hp => cases hp
  case collaborator =>
    have hlines (l : Line) : lineLevel l (f s) = true → lineLevel l s = true :=
      hf.line_was_high (by simp [hi]) (by simp [hi])
    refine ⟨hlines, ?_⟩
    obtain ⟨l, rfl⟩ := eq_irqack_of_agent hi
    cases hf with
    | irqack => cases l <;> rfl
    | bus _ hp | register _ hp => cases hp

end Sys2Proof.Machine

/-! PROOFS of the family 70_reset_and_hazards.md: RESET (R260, R261) and the power-on state (R262). The one idea:
RESET takes a state to the power-on state but for the fields R261 keeps and the two free bits (`resetAll_eq`), so
RESET at power-on can change the free bits alone. -/

namespace Sys2Proof.Machine

/-! ### RESET (R260, R261) -/

theorem exec_reset (s : State) : exec .reset s = .next (resetAll Config.machine (startOp s)) := rfl

/-- Settles O52: the word is the encoder's, and what RESET does not keep has its power-on value. -/
theorem resetRestoresTheRegisterBank : Obligations.ResetRestoresTheRegisterBank :=
  ⟨decodeOfEncodeIsTheOperation .reset rfl, fun s =>
    ⟨_, _, _, (exec_reset s).trans (next_congr (resetAll_eq Config.machine (startOp s)))⟩⟩

/-! ### The power-on state (R262) -/

/-- With a persisted copy, the battery-backed bytes of the main image are the copy's. -/
theorem powerOnByte_of_persisted {c : Configuration} {saved : Nat → Byte} (h : c.persisted = some saved) (p : Proc)
    (a : Nat) : powerOnByte c p a = if p = .main ∧ a < 4096 then saved a else c.initMem p a := by
  cases p with
  | main => by_cases ha : a < 4096 <;> simp [powerOnByte, h, Config.nvramLen, ha]
  | copA | copB => simp [powerOnByte]

theorem powerOnByte_of_not_persisted {c : Configuration} (h : c.persisted = none) (p : Proc) (a : Nat) :
    powerOnByte c p a = c.initMem p a := by
  cases p <;> simp [powerOnByte, h]

theorem lineLevel_powerOn (c : Configuration) (l : Line) : lineLevel l (State.powerOn c) = false := by
  cases l <;> rfl

/-- RESET at power-on draws the third and fourth free bits (U9) and changes nothing else. -/
theorem resetAll_startOp_powerOn (c : Configuration) :
    resetAll c (startOp (State.powerOn c)) =
      { State.powerOn c with paletteDirty := c.freeBit 2, overlayDirty := c.freeBit 3, freeCount := 4 } :=
  resetAll_eq c (startOp (State.powerOn c))

/-- Settles O54: the images by whether there is a persisted copy, the lines one by one, and RESET by
`resetAll_startOp_powerOn`. -/
theorem powerOnStateIsAsLoaded : Obligations.PowerOnStateIsAsLoaded := by
  refine ⟨fun c p a => ?images, fun c l => ⟨rfl, lineLevel_powerOn c l, rfl⟩, ?fixpoint⟩
  case images =>
    rw [readByte_powerOn]
    cases h : c.persisted with
    | some saved => exact powerOnByte_of_persisted h p a
    | none => exact powerOnByte_of_not_persisted h p a
  case fixpoint =>
    exact ⟨_, _, _, (exec_reset State.reset).trans (next_congr (resetAll_startOp_powerOn Config.machine))⟩

end Sys2Proof.Machine
